-- ==== Sys2Proof/Word.lean ====
section
/-! DEFINITION. The widths of the values the block moves (rule R11): a nibble and a byte. -/

namespace Sys2Proof

/-- One bus byte, one command byte or one data byte (R11). -/
abbrev Byte := BitVec 8

/-- "a 4-bit half of a byte" (R17). -/
abbrev Nibble := BitVec 4

end Sys2Proof
end

