-- ==== Sys2Proof/Syntax.lean ====
section
/-! DEFINITION. The instructions: one constructor for each of the 19 rows of spec/opcode_table.json. They stand on
the three levels of rule R53: host requests, controller units and framer primitives. -/

namespace Sys2Proof

/-- One row of the opcode table. The argument types are those of R63 (requests), R57 to R59 (controller units) and
R76 to R78 (framer primitives). -/
inductive Instr where
  /-- `initialize()`, tag 0x01 (R69). The table's own word is kept for Lean, hence the suffix. -/
  | initializeReq
  /-- `shutdown()`, tag 0x02 (R74). -/
  | shutdown
  /-- `identity()`, tag 0x03 (R75). -/
  | identity
  /-- `clear()`, tag 0x10 (R82). -/
  | clear
  /-- `home()`, tag 0x11 (R83). -/
  | home
  /-- `setCursor(row, col)`, tag 0x12, both unbounded integers (R85, D14). -/
  | setCursor (row col : Int)
  /-- `writeChar(c)`, tag 0x13, a code point (R86, D13). -/
  | writeChar (c : Nat)
  /-- `writeString(s)`, tag 0x14, a list of code points (R87, D13). -/
  | writeString (cs : List Nat)
  /-- Raw nibble 0x3: one enable pulse, then the 4500 µs wait (R59, R113). -/
  | rawInit8bit
  /-- Raw nibble 0x2: one enable pulse (R59). -/
  | rawInit4bit
  /-- Command byte 0x01 with its wait (R57, R82 `clearSeq`). -/
  | cmdClear
  /-- Command byte 0x02 with its wait (R57, R83 `homeSeq`). -/
  | cmdHome
  /-- Command byte 0x28 (R57). -/
  | cmdFunctionSet2line
  /-- Command byte 0x0C (R57). -/
  | cmdDisplayOn
  /-- Command byte `0x80 | a` with a 7-bit address (R57). -/
  | cmdSetDdramAddress (a : BitVec 7)
  /-- Data byte `d` (R58). -/
  | dataChar (d : Byte)
  /-- `sendRawNibble(v)`, `v` a frame value (R76). -/
  | sendRawNibble (v : Byte)
  /-- `sendCommand(b)` (R77). -/
  | sendCommand (b : Byte)
  /-- `sendData(b)` (R78). -/
  | sendData (b : Byte)
  deriving DecidableEq, Repr

end Sys2Proof
end

