-- ==== Sys2Proof/Config.lean ====
section
/-! DEFINITION. What is fixed for one block: the constants of rule R8, the timing fields of rule R9 and the open
parameters of rule R10. The open parameters and the timing fields are data of `Params`, held by the state and
written by construction only, so that a statement about every state is a statement about every choice of them. -/

namespace Sys2Proof

/-- The three masks rule R10 allows for `EN_MASK` (decision D1): one bit, clear of the nibble and of RS. -/
inductive EnMask where
  | bit1
  | bit2
  | bit3
  deriving DecidableEq, Repr

/-- The bus-byte mask of the enable bit (R10). -/
def EnMask.mask : EnMask → Byte
  | .bit1 => 0x02
  | .bit2 => 0x04
  | .bit3 => 0x08

/-- One entry of the open parameter `SHUTDOWN_ACTIONS` (R10, D7): a bus write or a delay. A `Connect` is left out,
because R74 says shutdown leaves `conn` unchanged and R35 that `Connect` is issued once (DEDUCED, log entry 10). -/
inductive PortAction where
  | write (v : Byte)
  | delay (t : Nat)
  deriving DecidableEq, Repr

/-- The configuration of one block: R9's timing fields in microseconds and R10's open parameters. -/
structure Params where
  enMask          : EnMask
  tPowerOn        : Nat
  tInitNibble     : Nat
  tEnPulse        : Nat
  tSettle         : Nat
  tClear          : Nat
  tHome           : Nat
  defaultBus      : Nat
  name            : String
  shutdownActions : List PortAction
  deriving DecidableEq, Repr

namespace Config

/-- R8 `ROWS`. -/
def rows : Int := 2
/-- R8 `COLS`. -/
def cols : Int := 16
/-- R8 `ROW_BASE[0]`. -/
def rowBase0 : Nat := 0x00
/-- R8 `ROW_BASE[1]`. -/
def rowBase1 : Nat := 0x40
/-- R8 `RS_BIT`. -/
def rsMask : Byte := 0x01
/-- R8 `CMD_CLEAR`. -/
def cmdClear : Byte := 0x01
/-- R8 `CMD_HOME`. -/
def cmdHome : Byte := 0x02
/-- R8 `CMD_FUNCTION_SET_2LINE`, as the source decomposes it. -/
def cmdFunctionSet2Line : Byte := 0x20 ||| 0x08
/-- R8 `CMD_DISPLAY_ON`, as the source decomposes it. -/
def cmdDisplayOn : Byte := 0x08 ||| 0x04
/-- R8 `CMD_SET_ADDR`. -/
def cmdSetAddr : Byte := 0x80
/-- R8 `NIB_INIT_8BIT`: a nibble value, not a frame value (R59). -/
def nibInit8Bit : Nibble := 0x3
/-- R8 `NIB_INIT_4BIT`: a nibble value, not a frame value (R59). -/
def nibInit4Bit : Nibble := 0x2
/-- R8 `INIT_REPEAT`. -/
def initRepeat : Nat := 3
/-- R10 `DEFAULT_ADDR`: "not a free parameter". -/
def defaultAddr : Nat := 0x00
/-- The largest code point (R11). -/
def codePointMax : Nat := 0x10FFFF

/-- The defaults: R9's durations, R10's `EN_MASK` 0x04 and empty `SHUTDOWN_ACTIONS`. R10 gives no default for
`DEFAULT_BUS` and `NAME`: the model names 0 and the empty string (DESIGN CHOICE, log entry 1). -/
def defaults : Params where
  enMask          := .bit2
  tPowerOn        := 1000000
  tInitNibble     := 4500
  tEnPulse        := 1
  tSettle         := 50
  tClear          := 2000
  tHome           := 2000
  defaultBus      := 0
  name            := ""
  shutdownActions := []

end Config

end Sys2Proof
end

