-- ==== Sys2Proof/WellFormed.lean ====
section
/-! DEFINITION. Which terms of `Instr` are instructions: code points in range (R11, R63) and frame values with no
bit but the nibble and RS (R56, R76). Row and column are unchecked here: out of range they are an error of the
request, not an ill-formed request (R64). -/

namespace Sys2Proof

/-- A code point: "0 ≤ c ≤ 0x10FFFF" (R63). -/
def isCodePoint (c : Nat) : Bool := decide (c ≤ Config.codePointMax)

/-- A frame value for `sendRawNibble`: "a nibble in bits 7:4, possibly RS in bit 0, and the `EN_MASK` bit clear"
(R76); bits 3 to 1 are 0 whichever of them EN is (R56). -/
def isFrameValue (v : Byte) : Bool := decide (v &&& 0x0E = 0)

/-- The checks an instruction must pass. -/
def Instr.wellFormed : Instr → Bool
  | .initializeReq => true
  | .shutdown => true
  | .identity => true
  | .clear => true
  | .home => true
  | .setCursor _ _ => true
  | .writeChar c => isCodePoint c
  | .writeString cs => cs.all isCodePoint
  | .rawInit8bit => true
  | .rawInit4bit => true
  | .cmdClear => true
  | .cmdHome => true
  | .cmdFunctionSet2line => true
  | .cmdDisplayOn => true
  | .cmdSetDdramAddress _ => true
  | .dataChar _ => true
  | .sendRawNibble v => isFrameValue v
  | .sendCommand _ => true
  | .sendData _ => true

end Sys2Proof
end

