-- ==== Sys2Proof/Decode.lean ====
section
/-! DEFINITION. Decoding and encoding, over the three levels of rule R53. What is decoded is an `Item`: a host
request (a tag and typed arguments, R63), a controller unit (a 9-bit value or a raw nibble, R53) or the bus frames a
framer primitive writes (R54, R62). The decoder is total and rejects by name; the encoder follows it. -/

namespace Sys2Proof

/-- A typed argument of a host request (R63, D4). -/
inductive Arg where
  | int (z : Int)
  | nat (n : Nat)
  | str (cs : List Nat)
  deriving DecidableEq, Repr

/-- An encoded instruction. The four formats are those of spec/opcode_table.json (R53). -/
inductive Item where
  /-- `host_request`: what arrives at the request port (R63). -/
  | request (tag : Byte) (args : List Arg)
  /-- `controller_unit9`: `(RS << 8) | b`, in a 16-bit word whose upper bits are 0. -/
  | unit (w : BitVec 16)
  /-- `controller_raw4`: a raw nibble, in a byte whose upper bits are 0. -/
  | raw (n : Byte)
  /-- `bus_frame_pair`: the bus bytes a framer primitive writes, in order (R55, R62). -/
  | frames (bs : List Byte)
  deriving DecidableEq, Repr

/-- Why a word spells no instruction. -/
inductive Reject where
  /-- "a request tag not in 30_encoding.md rule R63" (R94). -/
  | unknownRequest (tag : Byte)
  /-- A known tag with arguments that are not of its types (R63). -/
  | badArguments (tag : Byte)
  /-- "a `writeChar` or `writeString` argument above 0x10FFFF" (R94). -/
  | badCodePoint (c : Nat)
  /-- A 9-bit value that is none of the controller units of R57 and R58. -/
  | unlistedUnit (w : BitVec 16)
  /-- A raw nibble that is neither 0x3 nor 0x2 (R59). -/
  | unlistedRaw (n : Byte)
  /-- Bytes that are not the frames of one framer primitive (R54, R56, R79). -/
  | badFrames (bs : List Byte)
  deriving DecidableEq, Repr

/-- What the decoder answers. -/
inductive Decoded where
  | instr (i : Instr)
  | reject (r : Reject)
  deriving DecidableEq, Repr

/-- The instruction, if there is one. -/
def Decoded.toOption : Decoded → Option Instr
  | .instr i => some i
  | .reject _ => none

/-! ### Host requests (R63, R64) -/

/-- The tags of R63. -/
def requestTags : List Byte := [0x01, 0x02, 0x03, 0x10, 0x11, 0x12, 0x13, 0x14]

/-- A request with one code point, refused above 0x10FFFF (R64, R94). -/
def decodeWriteChar (c : Nat) : Decoded :=
  if isCodePoint c then .instr (.writeChar c) else .reject (.badCodePoint c)

/-- "the whole request is refused at decode": the first bad code point names the rejection (R94). -/
def decodeWriteString (cs : List Nat) : Decoded :=
  match cs.find? (fun c => !isCodePoint c) with
  | some c => .reject (.badCodePoint c)
  | none => .instr (.writeString cs)

/-- A tag and its arguments (R63). -/
def decodeRequest (tag : Byte) (args : List Arg) : Decoded :=
  match tag.toNat, args with
  | 0x01, [] => .instr .initializeReq
  | 0x02, [] => .instr .shutdown
  | 0x03, [] => .instr .identity
  | 0x10, [] => .instr .clear
  | 0x11, [] => .instr .home
  | 0x12, [.int row, .int col] => .instr (.setCursor row col)
  | 0x13, [.nat c] => decodeWriteChar c
  | 0x14, [.str cs] => decodeWriteString cs
  | _, _ => if requestTags.contains tag then .reject (.badArguments tag) else .reject (.unknownRequest tag)

/-! ### Controller units (R57, R58, R59) -/

/-- A 9-bit value `(RS << 8) | b` (R53): the command bytes of R57 and, with RS = 1, any data byte (R58). -/
def decodeUnit (w : BitVec 16) : Decoded :=
  if w = 0x001 then .instr .cmdClear
  else if w = 0x002 then .instr .cmdHome
  else if w = 0x028 then .instr .cmdFunctionSet2line
  else if w = 0x00C then .instr .cmdDisplayOn
  else if w &&& 0xFF80 = 0x0080 then .instr (.cmdSetDdramAddress (w.setWidth 7))
  else if w &&& 0xFF00 = 0x0100 then .instr (.dataChar (w.setWidth 8))
  else .reject (.unlistedUnit w)

/-- A raw nibble (R59). -/
def decodeRaw (n : Byte) : Decoded :=
  if n = 0x3 then .instr .rawInit8bit
  else if n = 0x2 then .instr .rawInit4bit
  else .reject (.unlistedRaw n)

/-! ### Bus frames (R54, R62) -/

/-- R54's layout: `((n & 0xF) << 4) | (rs ? 0x01 : 0x00) | (en ? EN_MASK : 0x00)`. -/
def frame (en : EnMask) (n : Nibble) (rs enable : Bool) : Byte :=
  (n.setWidth 8 <<< 4) ||| (if rs then Config.rsMask else 0) ||| (if enable then en.mask else 0)

/-- The two frames of one enable pulse, EN set and then EN clear (R55). -/
def pulseFrames (en : EnMask) (n : Nibble) (rs : Bool) : List Byte := [frame en n rs true, frame en n rs false]

/-- The nibble of a frame: "nibble = `v[7:4]`" (R62). -/
def frameNibble (v : Byte) : Nibble := v.extractLsb' 4 4

/-- RS of a frame: "RS = `v[0]`" (R62). -/
def frameRs (v : Byte) : Bool := v.getLsbD 0

/-- One pulse `(v | EN_MASK, v)` of R62, whose value drives no other bit (R56). -/
def isPulse (en : EnMask) (a v : Byte) : Bool := isFrameValue v && decide (a = v ||| en.mask)

/-- R62: one pulse is a raw nibble; two pulses are a byte, "`b = (nibble1 << 4) | nibble2`", with one RS. -/
def decodeFrames (en : EnMask) (bs : List Byte) : Decoded :=
  match bs with
  | [a, v] => if isPulse en a v then .instr (.sendRawNibble v) else .reject (.badFrames bs)
  | [a, v, c, w] =>
    if isPulse en a v && isPulse en c w && (frameRs v == frameRs w) then
      if frameRs v then .instr (.sendData (frameNibble v ++ frameNibble w))
      else .instr (.sendCommand (frameNibble v ++ frameNibble w))
    else .reject (.badFrames bs)
  | _ => .reject (.badFrames bs)

/-- The decoder, total on every item. -/
def decode (en : EnMask) : Item → Decoded
  | .request tag args => decodeRequest tag args
  | .unit w => decodeUnit w
  | .raw n => decodeRaw n
  | .frames bs => decodeFrames en bs

/-! ### The encoder -/

/-- The high nibble of a byte. -/
def byteHigh (b : Byte) : Nibble := b.extractLsb' 4 4

/-- The low nibble of a byte. -/
def byteLow (b : Byte) : Nibble := b.extractLsb' 0 4

/-- The four frames of a two-pulse byte, "high nibble first" (R43), both with the same RS (R79). -/
def byteFrames (en : EnMask) (b : Byte) (rs : Bool) : List Byte :=
  pulseFrames en (byteHigh b) rs ++ pulseFrames en (byteLow b) rs

/-- The words of an instruction, from the tables of R63 (requests), R57 to R59 (units) and R54 (frames). -/
def encode (en : EnMask) : Instr → Item
  | .initializeReq => .request 0x01 []
  | .shutdown => .request 0x02 []
  | .identity => .request 0x03 []
  | .clear => .request 0x10 []
  | .home => .request 0x11 []
  | .setCursor row col => .request 0x12 [.int row, .int col]
  | .writeChar c => .request 0x13 [.nat c]
  | .writeString cs => .request 0x14 [.str cs]
  | .rawInit8bit => .raw 0x3
  | .rawInit4bit => .raw 0x2
  | .cmdClear => .unit 0x001
  | .cmdHome => .unit 0x002
  | .cmdFunctionSet2line => .unit 0x028
  | .cmdDisplayOn => .unit 0x00C
  | .cmdSetDdramAddress a => .unit (0x080 ||| a.setWidth 16)
  | .dataChar d => .unit (0x100 ||| d.setWidth 16)
  | .sendRawNibble v => .frames (pulseFrames en (frameNibble v) (frameRs v))
  | .sendCommand b => .frames (byteFrames en b false)
  | .sendData b => .frames (byteFrames en b true)

/-! ### Words as spec/opcode_table.json numbers them -/

/-- The zero operands of a tag: the table gives a request's operands no bits. -/
def zeroArgs (tag : Byte) : List Arg :=
  if tag = 0x12 then [.int 0, .int 0]
  else if tag = 0x13 then [.nat 0]
  else if tag = 0x14 then [.str []]
  else []

/-- A `bus_frame_pair` row shows one byte `NNNN0E0R` for all its frames; EN is 1 in the first of a pair and 0 in the
second, so it is no operand. The frames are the pulse of that nibble and RS, then the pulse of a zero nibble. -/
def framesOfPattern (en : EnMask) (w : Byte) : List Byte :=
  if w &&& ~~~(0xF1 ||| en.mask) = 0 then pulseFrames en (frameNibble w) (frameRs w) ++ pulseFrames en 0 (frameRs w)
  else [w]

/-- The item a table word stands for. The table's formats overlap at 8 bits: a request tag is read as the request,
any other byte as the two-pulse frames of `sendCommand` or `sendData` (DESIGN CHOICE, log entry 12). -/
def tableItem (en : EnMask) (nbits w : Nat) : Item :=
  if nbits ≤ 4 then .raw (BitVec.ofNat 8 w)
  else if nbits ≤ 8 then
    if requestTags.contains (BitVec.ofNat 8 w) then .request (BitVec.ofNat 8 w) (zeroArgs (BitVec.ofNat 8 w))
    else .frames (framesOfPattern en (BitVec.ofNat 8 w))
  else .unit (BitVec.ofNat 16 w)

/-- The instruction the decoder reads from a table word, with `EN_MASK` at its default as the table shows it. -/
def decodeTableWord (nbits w : Nat) : Option Instr :=
  (decode Config.defaults.enMask (tableItem Config.defaults.enMask nbits w)).toOption

end Sys2Proof
end

