-- ==== Sys2Proof/Machine/State.lean ====
section
/-! DEFINITION. The machine's state as plain data: the record of rule R19, the sequencer and datapath of a request in
flight (R28, R29), the configuration (R9, R10), the four ports (R12) with the port trace (R13), and the downstream
state the block cannot see (R31). -/

namespace Sys2Proof.Machine

/-- A ConnectionHandle, "an opaque ConnectionHandle" (R19): nothing is ever computed from it. -/
abbrev Handle := Nat

/-- A TransportError value, passed on "unmodified" (R91): nothing is ever computed from it. -/
abbrev BusError := Nat

/-! ### The lifecycle and the errors -/

/-- R20: the lifecycle register `state`. -/
inductive Lifecycle where
  | notStarted
  | bootstrapping
  | ready
  | failed
  deriving DecidableEq, Repr

/-- R90: the errors a request can return. -/
inductive Err where
  | transportError (e : BusError)
  | validationError (row col : Int)
  | stateError (s : Lifecycle)
  deriving DecidableEq, Repr

/-- R12: the one response of a request. -/
inductive Response where
  | ok
  | okName (name : String)
  | err (e : Err)
  deriving DecidableEq, Repr

/-! ### The ports -/

/-- R41: an action. -/
inductive Action where
  | connect
  | write (v : Byte)
  | delay (t : Nat)
  deriving DecidableEq, Repr

/-- What the transport answers to one call (R35, R36). A write that answers `ok` gives no handle, so `h` is read by
`Connect` only. That it never answers (R95) is the end of the state's list of answers. -/
inductive Answer where
  | ok (h : Handle)
  | err (e : BusError)
  deriving DecidableEq, Repr

/-- The recorded answer of a `writeByte` call. -/
inductive WriteResult where
  | ok
  | err (e : BusError)
  deriving DecidableEq, Repr

/-- R13: one entry of the port trace: an event with the answer the transport gave, or the response that ends a
request. -/
inductive Event where
  | connect (addr bus : Nat) (r : Answer)
  | write (addr bus : Nat) (v : Byte) (r : WriteResult)
  | delay (t : Nat)
  | response (r : Response)
  deriving DecidableEq, Repr

/-- One entry of the queue at the request port. `early` says that the caller made the request without waiting for
the response of the one before it: the overlapping attempt of R50 and R115. -/
structure Presented where
  item  : Item
  early : Bool
  deriving DecidableEq, Repr

/-! ### The sequencer -/

/-- R29: the transient values of a request in flight. A value that is not formed yet reads 0 (log entry 3). -/
structure Datapath where
  /-- the command or data byte `b` -/
  b  : Byte
  /-- the frame value `v` -/
  v  : Byte
  /-- the RS choice -/
  rs : Bool
  deriving DecidableEq, Repr

/-- One entry of an action list, with the transient values that hold while the block executes it. -/
structure Slot where
  act : Action
  dp  : Datapath
  deriving DecidableEq, Repr

/-- A request in flight (R28): its action list, the sequencer index and the transient values. -/
structure InFlight where
  req  : Instr
  list : List Slot
  seq  : Nat
  dp   : Datapath
  deriving DecidableEq, Repr

/-! ### The downstream controller (R31): ghost state, read by no rule of the block -/

/-- R31 `ifmode`. -/
inductive IfMode where
  | unknown
  | fourBit
  deriving DecidableEq, Repr

/-- R31, R32 `phase`: which nibble the controller expects next. -/
inductive Phase where
  | unknown
  | high
  | low
  deriving DecidableEq, Repr

/-- R31 `lines`. -/
inductive Lines where
  | unknown
  | two
  deriving DecidableEq, Repr

/-- R31 `display`. -/
inductive Display where
  | unknown
  | on
  deriving DecidableEq, Repr

/-- R31 `content`: no more of it is modelled than "After clear it is blank". -/
inductive Content where
  | unknown
  | blank
  deriving DecidableEq, Repr

/-- The downstream state of R31. The last four fields are the model's own (log entry 8): what it must remember to
apply R89's table to the writes that leave the block. -/
structure Lcd where
  ifmode  : IfMode
  phase   : Phase
  lines   : Lines
  display : Display
  /-- a DDRAM address; `none` is R31's `Unknown` -/
  cursor  : Option (BitVec 7)
  content : Content
  /-- the last byte the transport took, `none` while unknown: it shows whether a write ends an enable pulse (R55) -/
  wire    : Option Byte
  /-- the high nibble of a byte under way and its RS, while `phase` is `low` -/
  pending : Option (Nibble × Bool)
  /-- how many raw 0x3 nibbles in a row were latched, up to 3 (R89's first row) -/
  raws    : Nat
  /-- a TransportError has ended a unit: from then on "no later unit updates any ghost field" (R89) -/
  lost    : Bool
  deriving DecidableEq, Repr

/-! ### The state -/

/-- The whole machine. -/
structure State where
  /-- the lifecycle register `state` (R20) -/
  lifecycle : Lifecycle
  /-- the device address (R23) -/
  addr      : Nat
  /-- the bus index (R24) -/
  bus       : Nat
  /-- the identity (R25) -/
  name      : String
  /-- the connection register (R26) -/
  conn      : Option Handle
  /-- the configuration (R9, R10), written by construction only -/
  cfg       : Params
  /-- the request in flight, if the transport has not returned from one of its calls (R28, R40) -/
  inFlight  : Option InFlight
  /-- the request port: what the host has presented and the block has not accepted yet, oldest first (R12, R65) -/
  port      : List Presented
  /-- the transport's answers to the calls to come, in order: an input from outside (R15, R95) -/
  answers   : List Answer
  /-- the transport's answer to every call after `answers` is used up; `none`: it never returns (R95) -/
  standing  : Option Answer
  /-- the port trace and the responses, oldest first (R13) -/
  trace     : List Event
  /-- the downstream ghost state (R31) -/
  lcd       : Lcd
  deriving DecidableEq, Repr

/-- Why the machine stops with a fault: NEVER. The block "raises no traps" (R90), every error is a response, and a
transport that never returns is a run that goes on without end (R95). No constructor, so nobody raises one; safe. -/
inductive Fault where
  deriving DecidableEq, Repr

/-- Why the machine gives no meaning (R94: "a model gives them no meaning"). Each refusal is safe: nothing can be
proved of what follows it. -/
inductive Refusal where
  /-- An instruction whose arm in exec has no meaning yet; raised by exec's arms only; safe. -/
  | notModelled (mnemonic : String)
  /-- R94 `UnknownRequest`: raised by `step` at decode, for a tag that is none of R63's; safe. -/
  | unknownRequest (tag : Byte)
  /-- R94 `BadCodePoint`: raised by `step` at decode and by the meanings of `writeChar` and `writeString`, for a code
  point above 0x10FFFF; safe. -/
  | badCodePoint (c : Nat)
  /-- R94 `ConcurrentRequest`: raised by `step` for an overlapping request at the port, and by every meaning in a
  state with a request in flight; safe. -/
  | concurrentRequest
  /-- Raised by `step` at decode for a known tag with arguments that are not of R63's types, which no host can make
  (D4: "typed arguments"); safe. -/
  | badArguments (tag : Byte)
  /-- Raised by `step` at decode for a word of an internal format that is no row of the opcode table (R57 to R59,
  R62); safe. -/
  | notARow (item : Item)
  deriving DecidableEq, Repr

/-! ### Reset is construction (R33, R67, R107) -/

/-- The options of `construct` (R67). -/
structure Options where
  addr : Option Nat
  bus  : Option Nat
  deriving DecidableEq, Repr

/-- R33: every downstream field `Unknown`. Nothing is known of the wire, and no unit has been sent. -/
def Lcd.reset : Lcd where
  ifmode  := .unknown
  phase   := .unknown
  lines   := .unknown
  display := .unknown
  cursor  := none
  content := .unknown
  wire    := none
  pending := none
  raws    := 0
  lost    := false

/-- R67: "purely configuration capture", with no port event. The transport behind the ports is an input: its answers
are arguments here (log entry 6). -/
def State.construct (p : Params) (o : Options) (answers : List Answer) (standing : Option Answer) : State where
  lifecycle := .notStarted
  addr      := o.addr.getD Config.defaultAddr
  bus       := o.bus.getD p.defaultBus
  name      := p.name
  conn      := none
  cfg       := p
  inFlight  := none
  port      := []
  answers   := answers
  standing  := standing
  trace     := []
  lcd       := Lcd.reset

/-- The machine right after reset: constructed with no overrides and the default configuration. The transport of this
one state answers `ok` to every call, as spec/95 has it "Unless a vector says otherwise" (DESIGN CHOICE, log
entry 6). -/
def State.reset : State := State.construct Config.defaults ⟨none, none⟩ [] (some (.ok 0))

end Sys2Proof.Machine
end

