-- ==== Sys2Proof/Machine/Flags.lean ====
section
/-! DEFINITION. The block's flag bits and its one guard. RS and EN are "bits of each emitted bus byte, not stored
flags" (rule R30); what a request may do is decided by the lifecycle register (R68). -/

namespace Sys2Proof.Machine

/-- `(v | EN_MASK) & 0xFF`: EN asserted (R76). -/
def enSet (en : EnMask) (v : Byte) : Byte := v ||| en.mask

/-- `v & ~EN_MASK & 0xFF`: EN cleared (R76). -/
def enClear (en : EnMask) (v : Byte) : Byte := v &&& ~~~en.mask

/-- Is EN asserted in this bus byte? -/
def enAsserted (en : EnMask) (v : Byte) : Bool := decide (v &&& en.mask ≠ 0)

/-- RS of a bus byte: bit 0 (R8, R54). -/
def rsOf (v : Byte) : Bool := decide (v &&& Config.rsMask ≠ 0)

/-- "RS bit (`0x1`) ORed into both nibbles" for data, "omitted for `sendCommand`" (R77, R78). -/
def withRs (rs : Bool) (v : Byte) : Byte := if rs then v ||| Config.rsMask else v

/-- R36: a write "is issued only while `conn = Some(h)`: during `initialize` after step 1, and during display requests
in `Ready`". -/
def State.mayWrite (s : State) : Bool := s.conn.isSome && (s.lifecycle = .bootstrapping || s.lifecycle = .ready)

/-- R68's table: the states in which a request is accepted. The column `Bootstrapping` "cannot occur"; there the
conditions the rules write (`state = NotStarted`, `state = Ready`, any state) decide (log entry 5). R68 has no row for a
controller unit or a framer primitive; as an item of its own it is held to R36's condition (log entry 11), while the
internal sequences of a request are not guarded again (R73). -/
def permitted (i : Instr) (s : State) : Bool :=
  match i with
  | .initializeReq => decide (s.lifecycle = .notStarted)
  | .clear => decide (s.lifecycle = .ready)
  | .home => decide (s.lifecycle = .ready)
  | .setCursor _ _ => decide (s.lifecycle = .ready)
  | .writeChar _ => decide (s.lifecycle = .ready)
  | .writeString _ => decide (s.lifecycle = .ready)
  | .shutdown => true
  | .identity => true
  | .rawInit8bit => s.mayWrite
  | .rawInit4bit => s.mayWrite
  | .cmdClear => s.mayWrite
  | .cmdHome => s.mayWrite
  | .cmdFunctionSet2line => s.mayWrite
  | .cmdDisplayOn => s.mayWrite
  | .cmdSetDdramAddress _ => s.mayWrite
  | .dataChar _ => s.mayWrite
  | .sendRawNibble _ => s.mayWrite
  | .sendCommand _ => s.mayWrite
  | .sendData _ => s.mayWrite

/-- R90's numeric codes. -/
def errCode : Err → Nat
  | .transportError _ => 1
  | .validationError _ _ => 2
  | .stateError _ => 3

/-- R20's optional 2-bit encoding; no rule depends on it. -/
def lifecycleCode : Lifecycle → BitVec 2
  | .notStarted => 0
  | .bootstrapping => 1
  | .ready => 2
  | .failed => 3

end Sys2Proof.Machine
end

