-- ==== Sys2Proof/Machine/Downstream.lean ====
section
/-! DEFINITION. What the writes of the block do to the downstream controller (rules R31, R32, R37, R89): ghost state
that no rule of the block reads. A nibble is latched when an enable pulse ends (R55); two nibbles make a byte, high
nibble first (R32); a byte has the effect R89's table gives it. -/

namespace Sys2Proof.Machine

/-- R89 and R114: after a TransportError inside a unit `phase`, `cursor`, `lines`, `display` and the content are
`Unknown`, and stay so. `ifmode` keeps its value (log entry 9). -/
def Lcd.loseSync (l : Lcd) : Lcd :=
  { l with phase := .unknown, lines := .unknown, display := .unknown, cursor := none, content := .unknown,
           wire := none, pending := none, raws := 0, lost := true }

/-- R89's table, rows of the command bytes. A command byte outside R57 is never emitted by a request; its effect is
not in the source, so what the source lets a command reach becomes `Unknown` (log entry 8). The phase is `High` after it
as after every complete byte (R32), and the unit length stays two pulses (R60), so `ifmode` is kept. -/
def Lcd.command (b : Byte) (l : Lcd) : Lcd :=
  if b = Config.cmdFunctionSet2Line then { l with lines := .two }
  else if b = Config.cmdDisplayOn then { l with display := .on }
  else if b = Config.cmdClear then { l with cursor := some 0x00, content := .blank }
  else if b = Config.cmdHome then { l with cursor := some 0x00 }
  else if b &&& Config.cmdSetAddr ≠ 0 then { l with cursor := some (b.setWidth 7) }
  else { l with lines := .unknown, display := .unknown, cursor := none, content := .unknown }

/-- R89's row of a data byte: "at which cell, and the cursor after it: not in source, so `cursor <- Unknown`". Some
cell shows it, so the content is no longer known to be blank. -/
def Lcd.data (l : Lcd) : Lcd := { l with cursor := none, content := .unknown }

/-- R89's first row: "raw `0x3` ×3 then raw `0x2`" commits the controller to 4-bit mode. -/
def Lcd.latchRaw (n : Nibble) (rs : Bool) (l : Lcd) : Lcd :=
  if rs then { l with raws := 0 }
  else if n = Config.nibInit8Bit then { l with raws := min Config.initRepeat (l.raws + 1) }
  else if n = Config.nibInit4Bit ∧ l.raws = Config.initRepeat then { l with ifmode := .fourBit, phase := .high, raws := 0 }
  else { l with raws := 0 }

/-- The second nibble of a byte whose first nibble is `n` with RS `rs`. Both frames of a byte carry one RS (R79);
were they to differ, nothing would be known of the effect. -/
def Lcd.latchLow (n : Nibble) (rs : Bool) (m : Nibble) (rs' : Bool) (l : Lcd) : Lcd :=
  if rs ≠ rs' then l.loseSync
  else if rs then { l.data with phase := .high, pending := none }
  else Lcd.command (n ++ m) { l with phase := .high, pending := none }

/-- A nibble is latched: a raw nibble before 4-bit mode, a half of a byte in it (R60, R32). -/
def Lcd.latch (n : Nibble) (rs : Bool) (l : Lcd) : Lcd :=
  match l.ifmode, l.phase, l.pending with
  | .unknown, _, _ => l.latchRaw n rs
  | .fourBit, .high, _ => { l with phase := .low, pending := some (n, rs) }
  | .fourBit, .low, some (m, rs') => l.latchLow m rs' n rs
  | .fourBit, .low, none => l.loseSync
  | .fourBit, .unknown, _ => l.loseSync

/-- A write that answered `ok`. A pulse ends when EN goes from set to clear on one value (R55); a pulse of two values,
or an EN-clear write on an unknown wire, which only `SHUTDOWN_ACTIONS` could make, leaves nothing known. Only the
nibble, RS and EN of a byte are read: that the other bits, whose meaning is not in the source (R103) and which only a
byte of `SHUTDOWN_ACTIONS` can set (R56), mean nothing to the controller is DESIGN CHOICE, log entry 23. No delay is
read: that the controller takes a write that comes before its minimum wait is over (R49, R74, R110 to R113), as
`SHUTDOWN_ACTIONS` or shorter timing fields let it, as any other is DESIGN CHOICE, log entry 24. -/
def Lcd.onWrite (en : EnMask) (v : Byte) (l : Lcd) : Lcd :=
  if l.lost then l
  else if enAsserted en v then { l with wire := some v }
  else match l.wire with
    | none => l.loseSync
    | some w =>
      if enAsserted en w then
        if w = enSet en v then Lcd.latch (v.extractLsb' 4 4) (rsOf v) { l with wire := some v } else l.loseSync
      else { l with wire := some v }

end Sys2Proof.Machine
end

