-- ==== Sys2Proof/Machine/Operands.lean ====
section
/-! DEFINITION. Operand assembly (rule R61), the 2×16 address decoder (R84), and the action lists of the framer (R76
to R78), of the controller units (R57 to R59) and of the requests (R69, R82 to R87). -/

namespace Sys2Proof.Machine

/-! ### Formulas of R61 -/

/-- `hi(b) = b & 0xF0`. -/
def hi (b : Byte) : Byte := b &&& 0xF0

/-- `lo(b) = (b << 4) & 0xF0`. -/
def lo (b : Byte) : Byte := (b <<< 4) &&& 0xF0

/-- `charByte(cp) = cp mod 256` (R61, R86). -/
def charByte (c : Nat) : Byte := BitVec.ofNat 8 (c % 256)

/-- R59: "the frame value of a raw nibble `n` is `n << 4` with RS = 0". -/
def rawFrame (n : Nibble) : Byte := n.setWidth 8 <<< 4

/-- `ROW_BASE[row]` for a valid row (R8). -/
def rowBase (row : Int) : Nat := if row = 0 then Config.rowBase0 else Config.rowBase1

/-- R84's validity: "valid row ∈ {0,1}, valid column ∈ [0,15]". -/
def validCell (row col : Int) : Bool := decide (0 ≤ row ∧ row < Config.rows ∧ 0 ≤ col ∧ col < Config.cols)

/-- `addr(r, c) = c + ROW_BASE[r]` of a valid cell (R61). -/
def cellAddr (row col : Int) : Nat := col.toNat + rowBase row

/-- The set-address command byte `0x80 | a` (R57). -/
def setAddrByte (a : Byte) : Byte := Config.cmdSetAddr ||| a

/-- R84's `decode(row, col)`: a command byte, or `none` for `invalid`. -/
def decodeCell (row col : Int) : Option Byte :=
  if validCell row col then some (setAddrByte (BitVec.ofNat 8 (cellAddr row col))) else none

/-! ### The nibble framer (R76 to R78) -/

/-- One enable pulse of `dp.v` (R76): the four actions, with the transient values beside them. -/
def pulse (p : Params) (dp : Datapath) : List Slot :=
  [⟨.write (enSet p.enMask dp.v), dp⟩, ⟨.delay p.tEnPulse, dp⟩,
   ⟨.write (enClear p.enMask dp.v), dp⟩, ⟨.delay p.tSettle, dp⟩]

/-- `sendRawNibble(v)` on its own: no byte is formed (R76). -/
def rawNibbleSeq (p : Params) (v : Byte) : List Slot := pulse p ⟨0, v, rsOf v⟩

/-- Two pulses, "high nibble first, then low nibble", with one RS (R77, R78). -/
def byteSeq (p : Params) (rs : Bool) (b : Byte) : List Slot :=
  pulse p ⟨b, withRs rs (hi b), rs⟩ ++ pulse p ⟨b, withRs rs (lo b), rs⟩

/-- `sendCommand(b)` (R77). -/
def commandSeq (p : Params) (b : Byte) : List Slot := byteSeq p false b

/-- `sendData(b)` (R78). -/
def dataSeq (p : Params) (b : Byte) : List Slot := byteSeq p true b

/-- A wait outside the framer, while the block forms nothing new. -/
def waitSlot (t : Nat) (dp : Datapath) : Slot := ⟨.delay t, dp⟩

/-- The transient values before any is formed. -/
def noData : Datapath := ⟨0, 0, false⟩

/-! ### Sequences of the controller units -/

/-- A raw 0x3 and its wait (R69 step 3, R113). -/
def rawInit8Seq (p : Params) : List Slot :=
  rawNibbleSeq p (rawFrame Config.nibInit8Bit) ++ [waitSlot p.tInitNibble ⟨0, rawFrame Config.nibInit8Bit, false⟩]

/-- A raw 0x2, with no wait beyond its own settle delay (R73). -/
def rawInit4Seq (p : Params) : List Slot := rawNibbleSeq p (rawFrame Config.nibInit4Bit)

/-- `clearSeq()` (R82). -/
def clearSeq (p : Params) : List Slot :=
  commandSeq p Config.cmdClear ++ [waitSlot p.tClear ⟨Config.cmdClear, lo Config.cmdClear, false⟩]

/-- `homeSeq()` (R83). -/
def homeSeq (p : Params) : List Slot :=
  commandSeq p Config.cmdHome ++ [waitSlot p.tHome ⟨Config.cmdHome, lo Config.cmdHome, false⟩]

/-! ### Sequences of the requests -/

/-- The bring-up sequence (R69), steps 1 to 8. -/
def bringUpSeq (p : Params) : List Slot :=
  [⟨.connect, noData⟩, waitSlot p.tPowerOn noData]
    ++ (List.replicate Config.initRepeat (rawInit8Seq p)).flatten
    ++ rawInit4Seq p
    ++ commandSeq p Config.cmdFunctionSet2Line
    ++ commandSeq p Config.cmdDisplayOn
    ++ clearSeq p
    ++ homeSeq p

/-- `SHUTDOWN_ACTIONS` as an action list (R74). The frame value of a write is the byte with EN clear, and
RS its bit 0: R29 gives neither for such a write (DESIGN CHOICE, log entry 3). -/
def shutdownSlot (p : Params) : PortAction → Slot
  | .write v => ⟨.write v, ⟨0, enClear p.enMask v, rsOf v⟩⟩
  | .delay t => waitSlot t noData

/-- `run(SHUTDOWN_ACTIONS)`'s list (R74). -/
def shutdownSeq (p : Params) : List Slot := p.shutdownActions.map (shutdownSlot p)

/-- The body of `writeChar` (R86). -/
def charSeq (p : Params) (c : Nat) : List Slot := dataSeq p (charByte c)

/-- R87: "The concatenation of the 8-event lists". -/
def stringSeq (p : Params) (cs : List Nat) : List Slot := cs.flatMap (charSeq p)

end Sys2Proof.Machine
end

