-- ==== Sys2Proof/Machine/Ops.lean ====
section
/-! DEFINITION. The shared operations: the port primitives (rules R15, R35, R36, R38), the sequencer `run` (R28, R42),
returning a response, raising an error (R90 to R93, R98), and the acceptance of a request (R50, R68). -/

namespace Sys2Proof.Machine

/-! ### The trace -/

/-- Appends one entry to the port trace (R13). -/
def State.emit (s : State) (e : Event) : State := { s with trace := s.trace ++ [e] }

/-! ### Responses and errors -/

/-- Returns a response on the request port (R12). -/
def State.respond (s : State) (r : Response) : State := s.emit (.response r)

/-- Error entry, for every error of the block (R90, R98): "An error saves nothing and changes no register"; control
returns to the host with the response, and there is no return from it (R99). -/
def State.raise (s : State) (e : Err) : State := s.respond (.err e)

/-! ### The transport -/

/-- The transport's answer to the next call, and the state without it; `none` when it never returns (R95). -/
def State.takeAnswer (s : State) : Option (Answer × State) :=
  match s.answers with
  | a :: rest => some (a, { s with answers := rest })
  | [] => s.standing.map (fun a => (a, s))

/-- How one action ends: it completes, the transport answers an error, or it does not return. -/
inductive Issued where
  | ok (s : State)
  | err (e : BusError) (s : State)
  | blocked
  deriving DecidableEq, Repr

/-- `Connect(addr, bus)` (R35): on `ok(h)` the connection register becomes `Some(h)`. -/
def State.issueConnect (s : State) : Issued :=
  match s.takeAnswer with
  | none => .blocked
  | some (.ok h, t) => .ok ({ t with conn := some h }.emit (.connect s.addr s.bus (.ok h)))
  | some (.err e, t) => .err e (t.emit (.connect s.addr s.bus (.err e)))

/-- `BusWrite(v)` (R36), with what it does downstream (R37, R45, R89). -/
def State.issueWrite (s : State) (v : Byte) : Issued :=
  match s.takeAnswer with
  | none => .blocked
  | some (.ok _, t) => .ok ({ t with lcd := s.lcd.onWrite s.cfg.enMask v }.emit (.write s.addr s.bus v .ok))
  | some (.err e, t) => .err e ({ t with lcd := s.lcd.loseSync }.emit (.write s.addr s.bus v (.err e)))

/-- `Delay(t)` (R38, R39): it always completes, and is recorded with its nominal length. -/
def State.issueDelay (s : State) (t : Nat) : Issued := .ok (s.emit (.delay t))

/-- One action (R41). -/
def State.issue (s : State) : Action → Issued
  | .connect => s.issueConnect
  | .write v => s.issueWrite v
  | .delay t => s.issueDelay t

/-! ### The sequencer -/

/-- How an action list ends. `blocked` carries `seq` and the transient values at the call that has not returned. -/
inductive RunEnd where
  | done (s : State)
  | failed (e : BusError) (s : State)
  | blocked (seq : Nat) (dp : Datapath) (s : State)
  deriving DecidableEq, Repr

/-- R42's `run`, from index `seq` on: list order, each action complete before the next, stopping at the first failure.
The list given is what is left of the action list from `seq`. A call that has not returned adds no event to the trace:
its event stands there once it is answered (R13 and R95 do not say: DESIGN CHOICE, log entry 20). Nor has a write that
has not returned acted on the controller yet: `lcd` is as before the call (R37, R40 and R95 do not say: DESIGN CHOICE,
log entry 22). -/
def runFrom : List Slot → Nat → State → RunEnd
  | [], _, s => .done s
  | a :: rest, seq, s =>
    match s.issue a.act with
    | .ok t => runFrom rest (seq + 1) t
    | .err e t => .failed e t
    | .blocked => .blocked seq a.dp s

/-! ### Requests -/

/-- What the end of its list does to the lifecycle register: only `initialize` writes it (R21, R69, R71, R91). -/
def State.settleLifecycle (s : State) (req : Instr) (l : Lifecycle) : State :=
  if req = .initializeReq then { s with lifecycle := l } else s

/-- The end of a request's action list (R28): its success response, its TransportError (R91), or a call that has not
returned, which leaves the request in flight (R95). -/
def conclude (req : Instr) (list : List Slot) : RunEnd → State
  | .done s => (s.settleLifecycle req .ready).respond .ok
  | .failed e s => (s.settleLifecycle req .failed).raise (.transportError e)
  | .blocked seq dp s => { s with inFlight := some ⟨req, list, seq, dp⟩ }

/-- Runs a request's action list from its first action. -/
def perform (req : Instr) (list : List Slot) (s : State) : State := conclude req list (runFrom list 0 s)

/-- Goes on with a request in flight at the action that has not completed. -/
def resume (f : InFlight) (s : State) : State :=
  conclude f.req f.list (runFrom (f.list.drop f.seq) f.seq { s with inFlight := none })

/-- The acceptance of a request: an overlapping request is refused (R50), one that is not permitted returns
`StateError` with no port event (R68, R93; for a unit or a primitive, log entry 11), any other has its body. -/
def accepting (i : Instr) (body : State → State) (s : State) : Host.Outcome State Fault Refusal :=
  if s.inFlight.isSome then .refused .concurrentRequest
  else if permitted i s then .next (body s)
  else .next (s.raise (.stateError s.lifecycle))

/-- A refusal at decode comes before every other check (R97). The spec gives no order among the three refusals of R94;
here the code point is checked before a request in flight is (DESIGN CHOICE, log entry 21). -/
def refusingCodePoints (cs : List Nat) (k : Host.Outcome State Fault Refusal) : Host.Outcome State Fault Refusal :=
  match cs.find? (fun c => !isCodePoint c) with
  | some c => .refused (.badCodePoint c)
  | none => k

/-! ### The request port -/

/-- Does the queue behind the current request begin with one made before its response (R50, R115)? -/
def overlaps : List Presented → Bool
  | [] => false
  | q :: _ => q.early

/-- What the machine says of a word that spells no instruction (R94). -/
def refusalOf (item : Item) : Reject → Refusal
  | .unknownRequest tag => .unknownRequest tag
  | .badArguments tag => .badArguments tag
  | .badCodePoint c => .badCodePoint c
  | .unlistedUnit _ => .notARow item
  | .unlistedRaw _ => .notARow item
  | .badFrames _ => .notARow item

/-- The next thing at the request port (R12). -/
inductive Fetched where
  /-- nothing is presented -/
  | idle
  /-- an overlapping request behind the one presented -/
  | overlapping
  /-- an instruction, with the port after it -/
  | instr (i : Instr) (rest : List Presented)
  /-- a word that spells none -/
  | reject (r : Refusal)
  deriving DecidableEq, Repr

/-- Fetching: the oldest item at the port, decoded with the block's own `EN_MASK`. The spec gives no order among the
three refusals of R94; here the overlapping item behind is seen before the oldest item is decoded, so that
`ConcurrentRequest` is the one reported (DESIGN CHOICE, log entry 21). -/
def State.fetch (s : State) : Fetched :=
  match s.port with
  | [] => .idle
  | q :: rest =>
    if overlaps rest then .overlapping
    else match decode s.cfg.enMask q.item with
      | .instr i => .instr i rest
      | .reject r => .reject (refusalOf q.item r)

/-- The state in which the very next step fetches one given item: nothing in flight, that item alone at the port. -/
def State.present (s : State) (item : Item) : State := { s with inFlight := none, port := [⟨item, false⟩] }

end Sys2Proof.Machine
end

