-- ==== Sys2Proof/Machine/Display.lean ====
section
/-! DEFINITION. The display requests: `clear`, `home`, `setCursor`, `writeChar` and `writeString` (rules R82 to R88).
Each requires `Ready`, and none changes the lifecycle. -/

namespace Sys2Proof.Machine

/-- `clear()` (R82). -/
def execClear (s : State) : Host.Outcome State Fault Refusal :=
  accepting .clear (fun s => perform .clear (clearSeq s.cfg) s) s

/-- `home()` (R83). -/
def execHome (s : State) : Host.Outcome State Fault Refusal :=
  accepting .home (fun s => perform .home (homeSeq s.cfg) s) s

/-- `setCursor(row, col)` (R85): the guard, then validation before any port event (R92, R97), then the command. -/
def execSetCursor (row col : Int) (s : State) : Host.Outcome State Fault Refusal :=
  accepting (.setCursor row col)
    (fun s => match decodeCell row col with
      | none => s.raise (.validationError row col)
      | some b => perform (.setCursor row col) (commandSeq s.cfg b) s) s

/-- `writeChar(c)` (R86): "truncated to its low 8 bits, as data". -/
def execWriteChar (c : Nat) (s : State) : Host.Outcome State Fault Refusal :=
  refusingCodePoints [c] (accepting (.writeChar c) (fun s => perform (.writeChar c) (charSeq s.cfg c) s) s)

/-- `writeString(s)` (R87): the characters "in sequence, left to right", under one guard. -/
def execWriteString (cs : List Nat) (s : State) : Host.Outcome State Fault Refusal :=
  refusingCodePoints cs (accepting (.writeString cs) (fun s => perform (.writeString cs) (stringSeq s.cfg cs) s) s)

end Sys2Proof.Machine
end

