-- ==== Sys2Proof/Machine/Framer.lean ====
section
/-! DEFINITION. The framer primitives (rules R76 to R78). They are internal and stateless (R81): no block state
is written but the trace. As an item of its own a primitive runs where R36 lets a write be issued (log entry 11). -/

namespace Sys2Proof.Machine

/-- `sendRawNibble(v)` (R76). -/
def execSendRawNibble (v : Byte) (s : State) : Host.Outcome State Fault Refusal :=
  accepting (.sendRawNibble v) (fun s => perform (.sendRawNibble v) (rawNibbleSeq s.cfg v) s) s

/-- `sendCommand(b)` (R77). -/
def execSendCommand (b : Byte) (s : State) : Host.Outcome State Fault Refusal :=
  accepting (.sendCommand b) (fun s => perform (.sendCommand b) (commandSeq s.cfg b) s) s

/-- `sendData(b)` (R78). -/
def execSendData (b : Byte) (s : State) : Host.Outcome State Fault Refusal :=
  accepting (.sendData b) (fun s => perform (.sendData b) (dataSeq s.cfg b) s) s

end Sys2Proof.Machine
end

