-- ==== Sys2Proof/Machine/Lifecycle.lean ====
section
/-! DEFINITION. The lifecycle requests: `initialize`, `shutdown` and `identity` (rules R69, R74, R75). -/

namespace Sys2Proof.Machine

/-- `initialize()` (R69 to R73): `state <- Bootstrapping`, the bring-up sequence, then `Ready`; `Failed` on the first
TransportError. -/
def execInitialize (s : State) : Host.Outcome State Fault Refusal :=
  accepting .initializeReq
    (fun s => perform .initializeReq (bringUpSeq s.cfg) { s with lifecycle := .bootstrapping }) s

/-- `shutdown()` (R74): `SHUTDOWN_ACTIONS` in `Ready`, nothing otherwise; no state written. -/
def execShutdown (s : State) : Host.Outcome State Fault Refusal :=
  accepting .shutdown
    (fun s => if s.lifecycle = .ready ∧ s.cfg.shutdownActions ≠ [] then perform .shutdown (shutdownSeq s.cfg) s
      else s.respond .ok) s

/-- `identity()` (R75): `Ok(name)` in every state, with no port event. -/
def execIdentity (s : State) : Host.Outcome State Fault Refusal :=
  accepting .identity (fun s => s.respond (.okName s.name)) s

end Sys2Proof.Machine
end

