-- ==== Sys2Proof/Machine/Units.lean ====
section
/-! DEFINITION. The controller units (rules R57 to R59), each as the internal sequence that sends it. A unit is no host
request: the block sends it inside `initialize` or a display request. As an item of its own it runs where R36 lets a
write be issued (log entry 11). -/

namespace Sys2Proof.Machine

/-- The raw nibble 0x3 with its wait (R59, R113). -/
def execRawInit8bit (s : State) : Host.Outcome State Fault Refusal :=
  accepting .rawInit8bit (fun s => perform .rawInit8bit (rawInit8Seq s.cfg) s) s

/-- The raw nibble 0x2 (R59, R73). -/
def execRawInit4bit (s : State) : Host.Outcome State Fault Refusal :=
  accepting .rawInit4bit (fun s => perform .rawInit4bit (rawInit4Seq s.cfg) s) s

/-- Command 0x01 with its wait: `clearSeq()` (R82, R112). -/
def execCmdClear (s : State) : Host.Outcome State Fault Refusal :=
  accepting .cmdClear (fun s => perform .cmdClear (clearSeq s.cfg) s) s

/-- Command 0x02 with its wait: `homeSeq()` (R83, R112). -/
def execCmdHome (s : State) : Host.Outcome State Fault Refusal :=
  accepting .cmdHome (fun s => perform .cmdHome (homeSeq s.cfg) s) s

/-- Command 0x28 (R57, R69 step 5). -/
def execCmdFunctionSet2line (s : State) : Host.Outcome State Fault Refusal :=
  accepting .cmdFunctionSet2line
    (fun s => perform .cmdFunctionSet2line (commandSeq s.cfg Config.cmdFunctionSet2Line) s) s

/-- Command 0x0C (R57, R69 step 6). -/
def execCmdDisplayOn (s : State) : Host.Outcome State Fault Refusal :=
  accepting .cmdDisplayOn (fun s => perform .cmdDisplayOn (commandSeq s.cfg Config.cmdDisplayOn) s) s

/-- Command `0x80 | a` (R57). -/
def execCmdSetDdramAddress (a : BitVec 7) (s : State) : Host.Outcome State Fault Refusal :=
  accepting (.cmdSetDdramAddress a)
    (fun s => perform (.cmdSetDdramAddress a) (commandSeq s.cfg (setAddrByte (a.setWidth 8))) s) s

/-- Data byte `d` (R58). -/
def execDataChar (d : Byte) (s : State) : Host.Outcome State Fault Refusal :=
  accepting (.dataChar d) (fun s => perform (.dataChar d) (dataSeq s.cfg d) s) s

end Sys2Proof.Machine
end

