-- ==== Sys2Proof/Machine/Dispatch.lean ====
section
/-! DEFINITION. One arm per instruction, each one call of its meaning. -/

namespace Sys2Proof.Machine

def exec (i : Instr) (s : State) : Host.Outcome State Fault Refusal :=
  match i with
  | .initializeReq => Sys2Proof.Machine.execInitialize s
  | .shutdown => Sys2Proof.Machine.execShutdown s
  | .identity => Sys2Proof.Machine.execIdentity s
  | .clear => Sys2Proof.Machine.execClear s
  | .home => Sys2Proof.Machine.execHome s
  | .setCursor row col => Sys2Proof.Machine.execSetCursor row col s
  | .writeChar c => Sys2Proof.Machine.execWriteChar c s
  | .writeString cs => Sys2Proof.Machine.execWriteString cs s
  | .rawInit8bit => Sys2Proof.Machine.execRawInit8bit s
  | .rawInit4bit => Sys2Proof.Machine.execRawInit4bit s
  | .cmdClear => Sys2Proof.Machine.execCmdClear s
  | .cmdHome => Sys2Proof.Machine.execCmdHome s
  | .cmdFunctionSet2line => Sys2Proof.Machine.execCmdFunctionSet2line s
  | .cmdDisplayOn => Sys2Proof.Machine.execCmdDisplayOn s
  | .cmdSetDdramAddress a => Sys2Proof.Machine.execCmdSetDdramAddress a s
  | .dataChar d => Sys2Proof.Machine.execDataChar d s
  | .sendRawNibble v => Sys2Proof.Machine.execSendRawNibble v s
  | .sendCommand b => Sys2Proof.Machine.execSendCommand b s
  | .sendData b => Sys2Proof.Machine.execSendData b s

end Sys2Proof.Machine
end

