-- ==== Sys2Proof/Machine/Step.lean ====
section
/-! DEFINITION. One step of the machine. -/

namespace Sys2Proof.Machine

/-- One step. A request in flight goes on where its call has not returned (R95); otherwise the oldest request at the
port is executed (R48), and with none the block waits (R99). An overlapping request stops the run (R50). -/
def step (s : State) : Host.Outcome State Fault Refusal :=
  match s.inFlight with
  | some f => if overlaps s.port then .refused .concurrentRequest else .next (resume f s)
  | none =>
    match s.fetch with
    | .idle => .next s
    | .overlapping => .refused .concurrentRequest
    | .reject r => .refused r
    | .instr i rest => exec i { s with port := rest }

/-- `s` with the item of a table word presented at the request port, alone, and nothing in flight, so that the very
next step fetches and runs it. -/
def State.withFetchWord (s : State) (nbits w : Nat) : State := s.present (tableItem s.cfg.enMask nbits w)

end Sys2Proof.Machine
end

