-- ==== Sys2Proof/Safety.lean ====
section
/-! DEFINITION. The terms the claims use: what the transport will answer, action lists as spec/41 and spec/42 print
them, the state after a list has run or has stopped, and the invariants of a legal run. -/

namespace Sys2Proof.Machine

/-! ### What the transport will answer -/

/-- The transport's answer to its call number `k` from now on (0 is the next); `none` when it never returns. -/
def State.answerAt (s : State) (k : Nat) : Option Answer := (s.answers[k]?).or s.standing

/-- The next `n` calls are answered `ok`. -/
def State.okCalls (s : State) (n : Nat) : Prop := ∀ k, k < n → ∃ h, s.answerAt k = some (.ok h)

/-- The next `n` calls are answered `ok`, and the one after them `err(e)`. -/
def State.failsAt (s : State) (n : Nat) (e : BusError) : Prop := s.okCalls n ∧ s.answerAt n = some (.err e)

/-- The next `n` calls are answered `ok`, and the one after them never returns. -/
def State.hangsAt (s : State) (n : Nat) : Prop := s.okCalls n ∧ s.answerAt n = none

/-! ### Action lists -/

/-- Is this action a call of the transport (R41)? -/
def Action.isCall : Action → Bool
  | .connect => true
  | .write _ => true
  | .delay _ => false

/-- How many calls of the transport a list makes. -/
def calls (L : List Action) : Nat := L.countP Action.isCall

/-- The actions before call number `k` of a list. -/
def beforeCall : Nat → List Action → List Action
  | _, [] => []
  | k, .delay t :: rest => .delay t :: beforeCall k rest
  | 0, .connect :: _ => []
  | 0, .write _ :: _ => []
  | k + 1, .connect :: rest => .connect :: beforeCall k rest
  | k + 1, .write v :: rest => .write v :: beforeCall k rest

/-- Call number `k` of a list. -/
def callAt (k : Nat) (L : List Action) : Option Action := (L.filter Action.isCall)[k]?

/-- The sum of a list's nominal delays (R117). -/
def nominalDelay (L : List Action) : Nat :=
  (L.map (fun a => match a with | .delay t => t | .connect => 0 | .write _ => 0)).sum

/-- The list of one raw nibble frame `v`, as R76 prints it for a frame with EN clear. -/
def nibbleActions (p : Params) (v : Byte) : List Action :=
  [.write (v ||| p.enMask.mask), .delay p.tEnPulse, .write v, .delay p.tSettle]

/-- The eight events of a byte with frame values `v` and `w`: `U[v|EN v w|EN w]` in the notation of spec/95. -/
def unitActions (p : Params) (v w : Byte) : List Action := nibbleActions p v ++ nibbleActions p w

/-- `clear()`'s nine events (R82). -/
def clearActions (p : Params) : List Action := unitActions p 0x00 0x10 ++ [.delay p.tClear]

/-- `home()`'s nine events (R83). -/
def homeActions (p : Params) : List Action := unitActions p 0x00 0x20 ++ [.delay p.tHome]

/-- The frames of data byte number `d`, 0 to 255, by the digits of `d`: its high nibble and RS, its low nibble and
RS (R78). -/
def dataActions (p : Params) (d : Nat) : List Action :=
  unitActions p (BitVec.ofNat 8 (16 * (d / 16) + 1)) (BitVec.ofNat 8 (16 * (d % 16) + 1))

/-- The frames of command byte number `b`, 0 to 255 (R77). -/
def commandActions (p : Params) (b : Nat) : List Action :=
  unitActions p (BitVec.ofNat 8 (16 * (b / 16))) (BitVec.ofNat 8 (16 * (b % 16)))

/-- The command of a valid cell (R85): 0x80 + col in row 0, 0xC0 + col in row 1 (R46). -/
def cursorActions (p : Params) (row col : Int) : List Action :=
  commandActions p ((if row = 0 then 0x80 else 0xC0) + col.toNat)

/-- The data bytes of a string, one list after another (R87). -/
def stringActions (p : Params) (cs : List Nat) : List Action := cs.flatMap (fun c => dataActions p (c % 256))

/-- The 55 events of R70's table. -/
def initializeActions (p : Params) : List Action :=
  [.connect, .delay p.tPowerOn]
    ++ nibbleActions p 0x30 ++ [.delay p.tInitNibble]
    ++ nibbleActions p 0x30 ++ [.delay p.tInitNibble]
    ++ nibbleActions p 0x30 ++ [.delay p.tInitNibble]
    ++ nibbleActions p 0x20
    ++ unitActions p 0x20 0x80
    ++ unitActions p 0x00 0xC0
    ++ unitActions p 0x00 0x10 ++ [.delay p.tClear]
    ++ unitActions p 0x00 0x20 ++ [.delay p.tHome]

/-- The action list of a display request whose arguments are valid (R82 to R87); `none` for every other instruction. -/
def displayActions (p : Params) : Instr → Option (List Action)
  | .clear => some (clearActions p)
  | .home => some (homeActions p)
  | .setCursor row col => if validCell row col then some (cursorActions p row col) else none
  | .writeChar c => if isCodePoint c then some (dataActions p (c % 256)) else none
  | .writeString cs => if cs.all isCodePoint then some (stringActions p cs) else none
  | .initializeReq => none
  | .shutdown => none
  | .identity => none
  | .rawInit8bit => none
  | .rawInit4bit => none
  | .cmdClear => none
  | .cmdHome => none
  | .cmdFunctionSet2line => none
  | .cmdDisplayOn => none
  | .cmdSetDdramAddress _ => none
  | .dataChar _ => none
  | .sendRawNibble _ => none
  | .sendCommand _ => none
  | .sendData _ => none

/-- The action list of a controller unit with its wait, or of a framer primitive (R57 to R59, R76 to R78, R112, R113);
`none` for a host request. -/
def internalActions (p : Params) : Instr → Option (List Action)
  | .rawInit8bit => some (nibbleActions p 0x30 ++ [.delay p.tInitNibble])
  | .rawInit4bit => some (nibbleActions p 0x20)
  | .cmdClear => some (clearActions p)
  | .cmdHome => some (homeActions p)
  | .cmdFunctionSet2line => some (unitActions p 0x20 0x80)
  | .cmdDisplayOn => some (unitActions p 0x00 0xC0)
  | .cmdSetDdramAddress a => some (commandActions p (0x80 + a.toNat))
  | .dataChar d => some (dataActions p d.toNat)
  | .sendRawNibble v =>
    some [.write (v ||| p.enMask.mask), .delay p.tEnPulse, .write (v &&& ~~~p.enMask.mask), .delay p.tSettle]
  | .sendCommand b => some (commandActions p b.toNat)
  | .sendData b => some (dataActions p b.toNat)
  | .initializeReq => none
  | .shutdown => none
  | .identity => none
  | .clear => none
  | .home => none
  | .setCursor _ _ => none
  | .writeChar _ => none
  | .writeString _ => none

/-- An entry of `SHUTDOWN_ACTIONS` as an action (R74). -/
def portAction : PortAction → Action
  | .write v => .write v
  | .delay t => .delay t

/-- Is this one of the five display operations of spec/42? -/
def isDisplayRequest : Instr → Bool
  | .clear => true
  | .home => true
  | .setCursor _ _ => true
  | .writeChar _ => true
  | .writeString _ => true
  | .initializeReq => false
  | .shutdown => false
  | .identity => false
  | .rawInit8bit => false
  | .rawInit4bit => false
  | .cmdClear => false
  | .cmdHome => false
  | .cmdFunctionSet2line => false
  | .cmdDisplayOn => false
  | .cmdSetDdramAddress _ => false
  | .dataChar _ => false
  | .sendRawNibble _ => false
  | .sendCommand _ => false
  | .sendData _ => false

/-- Is this one of the eight host requests of R63? -/
def isHostRequest : Instr → Bool
  | .initializeReq => true
  | .shutdown => true
  | .identity => true
  | .clear => true
  | .home => true
  | .setCursor _ _ => true
  | .writeChar _ => true
  | .writeString _ => true
  | .rawInit8bit => false
  | .rawInit4bit => false
  | .cmdClear => false
  | .cmdHome => false
  | .cmdFunctionSet2line => false
  | .cmdDisplayOn => false
  | .cmdSetDdramAddress _ => false
  | .dataChar _ => false
  | .sendRawNibble _ => false
  | .sendCommand _ => false
  | .sendData _ => false

/-! ### The state after a list -/

/-- The event of an action that completed; a `Connect` is recorded with its handle `h` (R13). -/
def State.okEvent (s : State) (h : Handle) : Action → Event
  | .connect => .connect s.addr s.bus (.ok h)
  | .write v => .write s.addr s.bus v .ok
  | .delay t => .delay t

/-- The event of an action that the transport answered `err(e)` (R13). -/
def State.errEvent (s : State) (e : BusError) : Action → Event
  | .connect => .connect s.addr s.bus (.err e)
  | .write v => .write s.addr s.bus v (.err e)
  | .delay t => .delay t

/-- The downstream state after the actions of a list have completed: its writes act on it in order (R37, R89). -/
def Lcd.ran (en : EnMask) (l : Lcd) : List Action → Lcd
  | [] => l
  | .write v :: rest => Lcd.ran en (l.onWrite en v) rest
  | .connect :: rest => Lcd.ran en l rest
  | .delay _ :: rest => Lcd.ran en l rest

/-- `s` after every action of `L` completed and `r` was returned: the answers are used up, the events and the response
stand at the end of the trace, the writes have acted downstream, and NOTHING ELSE has changed. -/
def State.ran (s : State) (L : List Action) (r : Response) : State :=
  { s with answers := s.answers.drop (calls L),
           trace := s.trace ++ L.map (s.okEvent 0) ++ [.response r],
           lcd := Lcd.ran s.cfg.enMask s.lcd L }

/-- `s` after call number `k` of `L`, the action `a`, was answered `err(e)`: the actions before it were issued, the
call itself was, no later one was, and the response is `e`'s (R42, R91). The writes before it have acted downstream,
where nothing of the display is known any more (R89, R114) and `ifmode` is kept (log entry 9). Nothing else has
changed. -/
def State.stopped (s : State) (L : List Action) (k : Nat) (a : Action) (e : BusError) : State :=
  { s with answers := s.answers.drop (k + 1),
           trace := s.trace ++ (beforeCall k L).map (s.okEvent 0)
             ++ [s.errEvent e a, .response (.err (.transportError e))],
           lcd := (Lcd.ran s.cfg.enMask s.lcd (beforeCall k L)).loseSync }

/-- The bytes written in a trace, in order. -/
def writtenBytes (tr : List Event) : List Byte :=
  tr.filterMap (fun e => match e with
    | .write _ _ v _ => some v
    | .connect _ _ _ => none
    | .delay _ => none
    | .response _ => none)

/-- The responses of a trace, in order. -/
def responses (tr : List Event) : List Response :=
  tr.filterMap (fun e => match e with
    | .response r => some r
    | .connect _ _ _ => none
    | .delay _ => none
    | .write _ _ _ _ => none)

/-- Does this entry go to the one target of the block (R34)? -/
def Event.onTarget (addr bus : Nat) : Event → Bool
  | .connect a b _ => decide (a = addr ∧ b = bus)
  | .write a b _ _ => decide (a = addr ∧ b = bus)
  | .delay _ => true
  | .response _ => true

/-- From `s` to `t` a request returned exactly one response, after all its events, or it is in flight and has returned
none (R12). -/
def State.answeredOnce (s t : State) : Prop :=
  ∃ ev, t.trace = s.trace ++ ev ∧
    (t.inFlight = none → ∃ evs r, ev = evs ++ [.response r] ∧ responses evs = []) ∧
    (t.inFlight ≠ none → responses ev = [])

/-- From `s` to `t` the request `req` met R91: after a call answered `err(e)` there is its response `TransportError(e)`
and no other event, `initialize` is left `Failed` and every other request leaves the lifecycle; and no
`TransportError` is returned without such a call just before it. -/
def State.endsAtFailure (req : Instr) (s t : State) : Prop :=
  (∀ (pre post : List Event) (e : BusError) (a : Action), a.isCall = true →
    t.trace = s.trace ++ pre ++ s.errEvent e a :: post →
    post = [.response (.err (.transportError e))] ∧ (req = .initializeReq → t.lifecycle = .failed) ∧
      (req ≠ .initializeReq → t.lifecycle = s.lifecycle)) ∧
  (∀ (evs : List Event) (e : BusError), t.trace = s.trace ++ evs ++ [.response (.err (.transportError e))] →
    ∃ pre a, a.isCall = true ∧ evs = pre ++ [s.errEvent e a])

/-- `s` with `late` as the transport's answers to come and `d` as its answer to every later call: the transport that
had nothing more to say answers after all (R40). -/
def State.answering (s : State) (late : List Answer) (d : Option Answer) : State :=
  { s with answers := late, standing := d }

/-- R29's transient values while the block sends one frame of a byte: `b` is put together from the nibbles of its two
frames, `v` is the frame value of the frame being sent, and RS is the frame's bit 0 (R43, R54). The arguments are the
EN-set writes of the two frames, and the write being issued. -/
def Datapath.ofWrites (en : EnMask) (first second now : Byte) : Datapath :=
  ⟨first.extractLsb' 4 4 ++ second.extractLsb' 4 4, enClear en now, rsOf now⟩

/-! ### The downstream state -/

/-- The controller is in 4-bit mode and expects a high nibble, and its wire is known with EN clear: how every complete
unit leaves it after bring-up (R32). -/
def State.inStep (s : State) : Prop :=
  s.lcd.ifmode = .fourBit ∧ s.lcd.phase = .high ∧ s.lcd.lost = false ∧
    ∃ w, s.lcd.wire = some w ∧ enAsserted s.cfg.enMask w = false

/-- Nothing is known of the display (R114). -/
def State.displayUnknown (s : State) : Prop :=
  s.lcd.phase = .unknown ∧ s.lcd.lines = .unknown ∧ s.lcd.display = .unknown ∧ s.lcd.cursor = none ∧
    s.lcd.content = .unknown

/-! ### The invariant of a legal run -/

/-- The request in flight is one the lifecycle permits, and waits at a call of its own list (R28, R95). Only
`initialize` issues `Connect` (R35), and only it is in flight in `Bootstrapping` (R22); whatever else has a list runs it
in `Ready` (R36, R74). -/
def State.inFlightLegal (s : State) (f : InFlight) : Prop :=
  (∃ a, f.list[f.seq]? = some a ∧ a.act.isCall = true ∧ f.dp = a.dp) ∧
  (f.req = .initializeReq →
    s.lifecycle = .bootstrapping ∧ f.list = bringUpSeq s.cfg ∧ (f.seq = 0 ↔ s.conn = none)) ∧
  (f.req ≠ .initializeReq →
    s.lifecycle = .ready ∧ permitted f.req s = true ∧ ∀ a ∈ f.list, a.act ≠ .connect)

/-- The invariant: there is no connection before `initialize` (R26), there is one in `Ready` (R27), `Bootstrapping` is
seen only while an `initialize` is in flight (R22), and what is in flight is legal. -/
def State.Inv (s : State) : Prop :=
  (s.lifecycle = .notStarted → s.conn = none) ∧
  (s.lifecycle = .ready → s.conn ≠ none) ∧
  (s.lifecycle = .bootstrapping → ∃ f, s.inFlight = some f ∧ f.req = .initializeReq) ∧
  (∀ f, s.inFlight = some f → s.inFlightLegal f)

/-- `Connect` was issued at most once, and not at all before an `initialize` got that far (R35). -/
def State.connectedOnce (s : State) : Prop :=
  s.trace.countP (fun e => match e with
    | .connect _ _ _ => true
    | .write _ _ _ _ => false
    | .delay _ => false
    | .response _ => false) ≤
  (match s.lifecycle, s.inFlight with
    | .notStarted, _ => 0
    | .bootstrapping, some f => min f.seq 1
    | .bootstrapping, none => 1
    | .ready, _ => 1
    | .failed, _ => 1)

/-- R21's transitions, with the two of a whole `initialize` taken in one step. -/
def legalMove : Lifecycle → Lifecycle → Bool
  | .notStarted, _ => true
  | .bootstrapping, .notStarted => false
  | .bootstrapping, _ => true
  | .ready, l => decide (l = .ready)
  | .failed, l => decide (l = .failed)

/-! ### The framing of the trace (R79, R110, R111) -/

/-- Where in an enable pulse a trace stands. -/
inductive Framing where
  /-- between pulses -/
  | between
  /-- after an EN-set write, whose EN-clear byte must be the one held -/
  | enHigh (v : Byte)
  /-- after the enable-pulse delay -/
  | pulsed (v : Byte)
  /-- after the EN-clear write -/
  | latched
  /-- after a failed write, before the response -/
  | failedWrite
  deriving DecidableEq, Repr

/-- May this event come next, and where does it lead? An EN-set write, the enable-pulse delay, the EN-clear write of
the same value, the settle delay; only then another write. A failed write is followed by its response alone. -/
def Framing.next (p : Params) : Framing → Event → Option Framing
  | .between, .connect _ _ _ => some .between
  | .between, .delay _ => some .between
  | .between, .response _ => some .between
  | .between, .write _ _ w r =>
    if w &&& ~~~(0xF1 ||| p.enMask.mask) = 0 ∧ enAsserted p.enMask w = true then
      (match r with
        | .ok => some (.enHigh (enClear p.enMask w))
        | .err _ => some .failedWrite)
    else none
  | .enHigh v, .delay t => if t = p.tEnPulse then some (.pulsed v) else none
  | .enHigh _, .connect _ _ _ => none
  | .enHigh _, .write _ _ _ _ => none
  | .enHigh _, .response _ => none
  | .pulsed v, .write _ _ w r =>
    if w = v then
      (match r with
        | .ok => some .latched
        | .err _ => some .failedWrite)
    else none
  | .pulsed _, .connect _ _ _ => none
  | .pulsed _, .delay _ => none
  | .pulsed _, .response _ => none
  | .latched, .delay t => if t = p.tSettle then some .between else none
  | .latched, .connect _ _ _ => none
  | .latched, .write _ _ _ _ => none
  | .latched, .response _ => none
  | .failedWrite, .response (.err (.transportError _)) => some .between
  | .failedWrite, .response (.err (.validationError _ _)) => none
  | .failedWrite, .response (.err (.stateError _)) => none
  | .failedWrite, .response .ok => none
  | .failedWrite, .response (.okName _) => none
  | .failedWrite, .connect _ _ _ => none
  | .failedWrite, .delay _ => none
  | .failedWrite, .write _ _ _ _ => none

/-- Follows a trace from a position; `none` once an event comes that may not. -/
def framingFrom (p : Params) : Framing → List Event → Option Framing
  | q, [] => some q
  | q, e :: rest =>
    match Framing.next p q e with
    | some q' => framingFrom p q' rest
    | none => none

/-- The trace is framed: it stands between pulses when nothing is in flight, and otherwise at a point from which what
is left of the list in flight leads there. -/
def State.Framed (s : State) : Prop :=
  s.cfg.shutdownActions = [] ∧
  match s.inFlight with
  | none => framingFrom s.cfg .between s.trace = some .between
  | some f => ∃ q, framingFrom s.cfg .between s.trace = some q ∧
      framingFrom s.cfg q ((f.list.drop f.seq).map (fun a => s.okEvent 0 a.act)) = some .between

end Sys2Proof.Machine
end

