-- ==== Sys2Proof/Certificates/Slice0/Obligations.lean ====
section
/-! DEFINITION. The statements for the provers, from the numbered rules of spec/. A docstring says which rule a
statement formalises, and where it rests on a decision of the spec's own (spec/92) or on a log entry of the model. -/

open Sys2Proof Sys2Proof.Machine

/-! ### Encoding and decoding -/

/-- Every well-formed instruction, with every operand at every value and whichever bit EN is, is read back from its
own words (R54, R57 to R59, R62, R63; tags are decision D4). -/
def Obligations.EncodeThenDecodeGivesInstructionBack : Prop :=
  ∀ (en : EnMask) (i : Instr), i.wellFormed = true → decode en (encode en i) = .instr i

/-- What the decoder answers passes the checks of WellFormed: code points in range (R64), frames with no other bit
set (R56). -/
def Obligations.DecodedInstructionIsWellFormed : Prop :=
  ∀ (en : EnMask) (item : Item) (i : Instr), decode en item = .instr i → i.wellFormed = true

/-- Words written out from R63's tags, the opcode table's 9-bit values and R54's bus bytes, one or more a family. -/
def Obligations.SpecWordsDecode : Prop :=
  decode .bit2 (.request 0x01 []) = .instr .initializeReq ∧
  decode .bit2 (.request 0x03 []) = .instr .identity ∧
  decode .bit2 (.request 0x12 [.int 1, .int 3]) = .instr (.setCursor 1 3) ∧
  decode .bit2 (.request 0x14 [.str [0x48, 0x69]]) = .instr (.writeString [0x48, 0x69]) ∧
  decode .bit2 (.raw 0b0011) = .instr .rawInit8bit ∧
  decode .bit2 (.unit 0b000101000) = .instr .cmdFunctionSet2line ∧
  decode .bit2 (.unit 0b011000011) = .instr (.cmdSetDdramAddress 0x43) ∧
  decode .bit2 (.unit 0b101000001) = .instr (.dataChar 0x41) ∧
  decode .bit2 (.frames [0b00110100, 0b00110000]) = .instr (.sendRawNibble 0x30) ∧
  decode .bit2 (.frames [0x24, 0x20, 0x84, 0x80]) = .instr (.sendCommand 0x28) ∧
  decode .bit2 (.frames [0x45, 0x41, 0x15, 0x11]) = .instr (.sendData 0x41) ∧
  decode .bit3 (.frames [0x28, 0x20, 0x88, 0x80]) = .instr (.sendCommand 0x28)

/-- The bytes a framer primitive hands to the transport are R54's frames of it, in R43's order: the actions of R76 to
R78 and the layout of R54 agree. That a primitive is an item of its own, run where R36 lets a write be issued, is log
entry 11 (DESIGN CHOICE). -/
def Obligations.FramesWrittenAreTheLayout : Prop :=
  ∀ (s : State) (i : Instr) (bs : List Byte), i.wellFormed = true → encode s.cfg.enMask i = .frames bs →
    s.inFlight = none → s.mayWrite = true → s.okCalls bs.length →
    ∃ t, exec i s = .next t ∧ writtenBytes t.trace = writtenBytes s.trace ++ bs

/-- A tag that is none of R63's is refused, in every lifecycle state and whatever stands beside it (R64, R94,
decision D21). -/
def Obligations.UnlistedTagIsRefused : Prop :=
  ∀ (s : State) (tag : Byte) (args : List Arg) (early : Bool) (rest : List Presented),
    s.inFlight = none → s.port = ⟨.request tag args, early⟩ :: rest → overlaps rest = false →
    tag ∉ ([0x01, 0x02, 0x03, 0x10, 0x11, 0x12, 0x13, 0x14] : List Byte) →
    step s = .refused (.unknownRequest tag)

/-- A code point above 0x10FFFF refuses the whole request, before the guard, in `writeChar` and anywhere in a string
(R64, R94, R97, decision D13). -/
def Obligations.BadCodePointRefusesRequest : Prop :=
  ∀ (s : State) (early : Bool) (rest : List Presented), s.inFlight = none → overlaps rest = false →
    (∀ c : Nat, 0x10FFFF < c → s.port = ⟨.request 0x13 [.nat c], early⟩ :: rest →
      step s = .refused (.badCodePoint c)) ∧
    (∀ (before after : List Nat) (c : Nat), (∀ d ∈ before, d ≤ 0x10FFFF) → 0x10FFFF < c →
      s.port = ⟨.request 0x14 [.str (before ++ c :: after)], early⟩ :: rest →
      step s = .refused (.badCodePoint c))

/-- A request made while another is in flight is refused: at the port behind a request that has not returned, behind
the request about to be executed, and as an instruction (R50, R94, R115, decision D11; `early` is log entry 7). That
`ConcurrentRequest` is reported whatever the items spell, also where one of them would be `UnknownRequest` or
`BadCodePoint`, is log entry 21 (DESIGN CHOICE). -/
def Obligations.OverlappingRequestIsRefused : Prop :=
  ∀ s : State,
    (∀ (q : Presented) (rest : List Presented), s.inFlight ≠ none → s.port = q :: rest → q.early = true →
      step s = .refused .concurrentRequest) ∧
    (∀ (p q : Presented) (rest : List Presented), s.inFlight = none → s.port = p :: q :: rest → q.early = true →
      step s = .refused .concurrentRequest) ∧
    (∀ i : Instr, i.wellFormed = true → s.inFlight ≠ none → exec i s = .refused .concurrentRequest)

/-! ### The step -/

/-- A step executes the instruction that the oldest item at the port decodes to, on the state without that item (R48,
R65). -/
def Obligations.StepExecutesTheDecodedInstruction : Prop :=
  ∀ (s : State) (q : Presented) (rest : List Presented) (i : Instr), s.inFlight = none → s.port = q :: rest →
    overlaps rest = false → decode s.cfg.enMask q.item = .instr i →
    step s = exec i { s with port := rest }

/-- With nothing presented and nothing in flight "the block waits for the next request" (R99). -/
def Obligations.StepWaitsForARequest : Prop :=
  ∀ s : State, s.inFlight = none → s.port = [] → step s = .next s

/-- A transport that does not return holds the block: the step answers the same state, so that the run is infinite and
never final (R95, decision D22). -/
def Obligations.UnansweredCallBlocksForever : Prop :=
  ∀ (s : State) (f : InFlight), s.inFlight = some f → s.inFlightLegal f → s.answerAt 0 = none →
    overlaps s.port = false → step s = .next s

/-- A display request whose call number `k` does not return has issued the events before that call, and none after it,
has returned no response, and stays in flight at that index with R29's values of the byte it is sending (R28, R95).
Call `k` is a write of the byte whose two frames begin at calls `4 * (k / 4)` and `4 * (k / 4) + 2`. That the waiting
call has no event yet is log entry 20, that it has not acted downstream yet log entry 22 (DESIGN CHOICE each). The
effect downstream is the model's ghost state: log entries 8, 18 (after data, and for set-address) and 24. -/
def Obligations.UnansweredDisplayRequestStaysInFlight : Prop :=
  ∀ (s : State) (i : Instr) (L : List Action) (k : Nat), s.inFlight = none → s.lifecycle = .ready →
    displayActions s.cfg i = some L → k < calls L → s.hangsAt k →
    ∃ (list : List Slot) (first second now : Byte), list.map Slot.act = L ∧
      callAt (4 * (k / 4)) L = some (.write first) ∧ callAt (4 * (k / 4) + 2) L = some (.write second) ∧
      callAt k L = some (.write now) ∧
      exec i s = .next { s with answers := s.answers.drop k,
                                trace := s.trace ++ (beforeCall k L).map (s.okEvent 0),
                                lcd := Lcd.ran s.cfg.enMask s.lcd (beforeCall k L),
                                inFlight := some ⟨i, list, (beforeCall k L).length,
                                  .ofWrites s.cfg.enMask first second now⟩ }

/-- Latency does not change what a request does (R40): one that waited at a call and then gets its answers, all of them
or some, goes on to the state it would have reached had the transport had them at once. For every instruction, when it
first waited and when it waits again. That a waiting write acts downstream when it is answered is log entry 22 (DESIGN
CHOICE). -/
def Obligations.LateAnswersChangeNothing : Prop :=
  ∀ (s t : State) (late : List Answer) (d : Option Answer), s.standing = none → overlaps s.port = false →
    t.inFlight ≠ none →
    (∀ i : Instr, exec i s = .next t → step (t.answering late d) = exec i (s.answering (s.answers ++ late) d)) ∧
    (s.inFlight ≠ none → step s = .next t → step (t.answering late d) = step (s.answering (s.answers ++ late) d))

/-! ### The nibble framer -/

/-- R80's law. -/
def Obligations.NibbleSplitReassembles : Prop := ∀ b : Byte, hi b ||| (lo b >>> 4) = b

/-- R76: `sendRawNibble(v)` is one enable pulse; nothing else changes. That it runs as an item of its own where R36
lets a write be issued, and returns `Ok`, is log entry 11 (DESIGN CHOICE). The effect downstream is the model's ghost
state: log entries 8 and 24. -/
def Obligations.RawNibbleCompletes : Prop :=
  ∀ (s : State) (v : Byte), s.inFlight = none → s.mayWrite = true → s.okCalls 2 →
    exec (.sendRawNibble v) s = .next (s.ran
      [.write (v ||| s.cfg.enMask.mask), .delay s.cfg.tEnPulse, .write (v &&& ~~~s.cfg.enMask.mask),
        .delay s.cfg.tSettle] .ok)

/-- R77: `sendCommand(b)` and the command units of R57 that carry no wait: the high nibble's pulse, then the low
nibble's, RS clear in all four writes. That they run as items of their own where R36 lets a write be issued, and
return `Ok`, is log entry 11 (DESIGN CHOICE). The effect downstream is the model's ghost state: log entries 8, 18
(after data, and for set-address) and 24. -/
def Obligations.CommandBytesComplete : Prop :=
  ∀ s : State, s.inFlight = none → s.mayWrite = true → s.okCalls 4 →
    (∀ b : Byte, exec (.sendCommand b) s = .next (s.ran (commandActions s.cfg b.toNat) .ok)) ∧
    (exec .cmdFunctionSet2line s = .next (s.ran (unitActions s.cfg 0x20 0x80) .ok)) ∧
    (exec .cmdDisplayOn s = .next (s.ran (unitActions s.cfg 0x00 0xC0) .ok)) ∧
    (∀ a : BitVec 7,
      exec (.cmdSetDdramAddress a) s = .next (s.ran (commandActions s.cfg (0x80 + a.toNat)) .ok))

/-- R78, R58: `sendData(b)` and the data unit: the same nibbles with RS set in all four writes. That they run as items
of their own where R36 lets a write be issued, and return `Ok`, is log entry 11 (DESIGN CHOICE). The effect downstream
is the model's ghost state: log entries 8, 18 (after data, and for set-address) and 24. -/
def Obligations.DataBytesComplete : Prop :=
  ∀ (s : State) (b : Byte), s.inFlight = none → s.mayWrite = true → s.okCalls 4 →
    (exec (.sendData b) s = .next (s.ran (dataActions s.cfg b.toNat) .ok)) ∧
    (exec (.dataChar b) s = .next (s.ran (dataActions s.cfg b.toNat) .ok))

/-- R59, R113: the raw units, 0x3 with its further wait and 0x2 without one. That a unit runs as an item of its own
where R36 lets a write be issued, and returns `Ok`, is log entry 11 (DESIGN CHOICE). The effect downstream is the
model's ghost state: log entries 8 and 24. -/
def Obligations.RawUnitsComplete : Prop :=
  ∀ s : State, s.inFlight = none → s.mayWrite = true → s.okCalls 2 →
    (exec .rawInit8bit s =
      .next (s.ran (nibbleActions s.cfg 0x30 ++ [.delay s.cfg.tInitNibble]) .ok)) ∧
    (exec .rawInit4bit s = .next (s.ran (nibbleActions s.cfg 0x20) .ok))

/-- R112: the units 0x01 and 0x02, each with its wait after the last write. That a unit runs as an item of its own
where R36 lets a write be issued, and returns `Ok`, is log entry 11 (DESIGN CHOICE). The effect downstream is the
model's ghost state: log entries 8 and 24. -/
def Obligations.ClearAndHomeUnitsComplete : Prop :=
  ∀ s : State, s.inFlight = none → s.mayWrite = true → s.okCalls 4 →
    (exec .cmdClear s =
      .next (s.ran (unitActions s.cfg 0x00 0x10 ++ [.delay s.cfg.tClear]) .ok)) ∧
    (exec .cmdHome s =
      .next (s.ran (unitActions s.cfg 0x00 0x20 ++ [.delay s.cfg.tHome]) .ok))

/-- R42, R76 to R78: a controller unit or a framer primitive whose call number `k` fails issues the events before it
and that call, returns the error unchanged, and issues no later event: neither a settle delay nor a unit's wait. That
units and primitives run as items of their own where R36 lets a write be issued, and answer `TransportError`, is log
entry 11 (DESIGN CHOICE); that `ifmode` is kept is log entry 9. The effect downstream is the model's ghost state: log
entries 8, 18 (after data, and for set-address) and 24. -/
def Obligations.FirstFailureEndsThePrimitive : Prop :=
  ∀ (s : State) (i : Instr) (L : List Action) (k : Nat) (e : BusError) (a : Action), s.inFlight = none →
    s.mayWrite = true → internalActions s.cfg i = some L → callAt k L = some a → s.failsAt k e →
    exec i s = .next (s.stopped L k a e)

/-! ### The display requests -/

/-- R82: `clear()` in `Ready` on a good transport. The effect downstream is the model's ghost state: log entries 8 and
24. -/
def Obligations.ClearCompletes : Prop :=
  ∀ s : State, s.inFlight = none → s.lifecycle = .ready → s.okCalls 4 →
    exec .clear s = .next (s.ran
      [.write (0x00 ||| s.cfg.enMask.mask), .delay s.cfg.tEnPulse, .write 0x00, .delay s.cfg.tSettle,
       .write (0x10 ||| s.cfg.enMask.mask), .delay s.cfg.tEnPulse, .write 0x10, .delay s.cfg.tSettle,
       .delay s.cfg.tClear] .ok)

/-- R83: `home()` in `Ready` on a good transport. The effect downstream is the model's ghost state: log entries 8 and
24. -/
def Obligations.HomeCompletes : Prop :=
  ∀ s : State, s.inFlight = none → s.lifecycle = .ready → s.okCalls 4 →
    exec .home s = .next (s.ran
      [.write (0x00 ||| s.cfg.enMask.mask), .delay s.cfg.tEnPulse, .write 0x00, .delay s.cfg.tSettle,
       .write (0x20 ||| s.cfg.enMask.mask), .delay s.cfg.tEnPulse, .write 0x20, .delay s.cfg.tSettle,
       .delay s.cfg.tHome] .ok)

/-- R85: `setCursor` at each of the 32 cells sends the command byte of that cell and waits no more. The effect
downstream is the model's ghost state: log entries 8, 18 (after data, and for set-address) and 24. -/
def Obligations.SetCursorCompletes : Prop :=
  ∀ (s : State) (row col : Int), s.inFlight = none → s.lifecycle = .ready → s.okCalls 4 →
    (row = 0 ∨ row = 1) → 0 ≤ col → col ≤ 15 →
    exec (.setCursor row col) s =
      .next (s.ran (commandActions s.cfg ((if row = 0 then 0x80 else 0xC0) + col.toNat)) .ok)

/-- R116: `setCursor` anywhere else returns `ValidationError` with its arguments, and the response is all that
happens: no port event, so nothing downstream. -/
def Obligations.InvalidSetCursorIssuesNothing : Prop :=
  ∀ (s : State) (row col : Int), s.inFlight = none → s.lifecycle = .ready →
    ¬ ((row = 0 ∨ row = 1) ∧ 0 ≤ col ∧ col ≤ 15) →
    exec (.setCursor row col) s =
      .next { s with trace := s.trace ++ [.response (.err (.validationError row col))] }

/-- R92: only `setCursor` raises `ValidationError`, for its own arguments when `decode` says invalid, with no port
event and nothing else changed. -/
def Obligations.OnlySetCursorRaisesValidationError : Prop :=
  ∀ (i : Instr) (s t : State) (evs : List Event) (row col : Int), exec i s = .next t →
    t.trace = s.trace ++ evs ++ [.response (.err (.validationError row col))] →
    i = .setCursor row col ∧ decodeCell row col = none ∧ evs = [] ∧
      t = { s with trace := s.trace ++ [.response (.err (.validationError row col))] }

/-- R84, R46: the 2×16 address decoder, on every pair of integers: the 32 cells have their command bytes, and no other
pair has one. -/
def Obligations.DecoderMapsExactlyTheCells : Prop :=
  (∀ col : Int, 0 ≤ col → col ≤ 15 →
    decodeCell 0 col = some (BitVec.ofNat 8 (0x80 + col.toNat)) ∧
    decodeCell 1 col = some (BitVec.ofNat 8 (0xC0 + col.toNat))) ∧
  (∀ row col : Int, ¬ ((row = 0 ∨ row = 1) ∧ 0 ≤ col ∧ col ≤ 15) → decodeCell row col = none)

/-- R86: `writeChar(c)` sends the low 8 bits of the code point as data, and no code point is an error of it. The
effect downstream is the model's ghost state: log entries 8, 18 (after data, and for set-address) and 24. -/
def Obligations.WriteCharCompletes : Prop :=
  ∀ (s : State) (c : Nat), s.inFlight = none → s.lifecycle = .ready → s.okCalls 4 → c ≤ 0x10FFFF →
    exec (.writeChar c) s = .next (s.ran (dataActions s.cfg (c % 256)) .ok)

/-- R87: `writeString` sends its characters in order, each truncated on its own, with nothing between them; the empty
string sends nothing. The effect downstream is the model's ghost state: log entries 8, 18 (after data, and for
set-address) and 24. -/
def Obligations.WriteStringCompletes : Prop :=
  ∀ (s : State) (cs : List Nat), s.inFlight = none → s.lifecycle = .ready → s.okCalls (4 * cs.length) →
    (∀ c ∈ cs, c ≤ 0x10FFFF) →
    exec (.writeString cs) s =
      .next (s.ran (cs.flatMap (fun c => dataActions s.cfg (c % 256))) .ok)

/-- R66: a string is its first character, then the rest of it: the same bytes to the transport, the same effect
downstream and on the block. The effect downstream is the model's ghost state: log entries 8, 18 (after data, and for
set-address) and 24. -/
def Obligations.WriteStringIsWriteCharThenRest : Prop :=
  ∀ (s : State) (c : Nat) (cs : List Nat), s.inFlight = none → s.lifecycle = .ready →
    s.okCalls (4 * (cs.length + 1)) → (∀ d ∈ c :: cs, d ≤ 0x10FFFF) →
    ∃ t u v, exec (.writeChar c) s = .next t ∧ exec (.writeString cs) t = .next u ∧
      exec (.writeString (c :: cs)) s = .next v ∧
      writtenBytes u.trace = writtenBytes v.trace ∧ u.lcd = v.lcd ∧ u.answers = v.answers ∧
      { u with trace := v.trace } = v

/-- R88: a display request whose call number `k` fails issues the events before it and that call, returns the error
unchanged, issues no later event, and leaves `Ready` and every register of the block as it was. Downstream phase,
lines, display, cursor and content are then `Unknown` (R89, R114, decision D19) and `ifmode` is kept, which is log
entry 9 (DEDUCED). The effect of the writes before it is the model's ghost state: log entries 8, 18 and 24. -/
def Obligations.FirstFailureEndsTheDisplayRequest : Prop :=
  ∀ (s : State) (i : Instr) (L : List Action) (k : Nat) (e : BusError) (a : Action), s.inFlight = none →
    s.lifecycle = .ready → displayActions s.cfg i = some L → callAt k L = some a → s.failsAt k e →
    exec i s = .next (s.stopped L k a e)

/-- R93, R97: outside `Ready` every display request returns `StateError` with the lifecycle state and does nothing
else, even where its row or column is invalid (the error is decision D5, the order decision D6). -/
def Obligations.DisplayRequestOutsideReadyIsStateError : Prop :=
  ∀ (s : State) (i : Instr), isDisplayRequest i = true → i.wellFormed = true → s.inFlight = none →
    s.lifecycle ≠ .ready →
    exec i s = .next { s with trace := s.trace ++ [.response (.err (.stateError s.lifecycle))] }

/-! ### The lifecycle requests -/

/-- R69: `initialize` from `NotStarted` on a good transport issues the 55 events of R70 in order, holds the handle it
was given and ends `Ready`. The effect downstream is the model's ghost state: log entries 8 and 24. -/
def Obligations.InitializeBringsUp : Prop :=
  ∀ (s : State) (h : Handle), s.inFlight = none → s.lifecycle = .notStarted → s.answerAt 0 = some (.ok h) →
    s.okCalls 25 →
    exec .initializeReq s = .next
      { s with lifecycle := .ready, conn := some h, answers := s.answers.drop 25,
               trace := s.trace ++ (initializeActions s.cfg).map (s.okEvent h) ++ [.response .ok],
               lcd := Lcd.ran s.cfg.enMask s.lcd (initializeActions s.cfg) }

/-- R71 at event 0: a `Connect` that fails is the only event, leaves `conn` as it was and the block `Failed`. -/
def Obligations.InitializeFailsAtConnect : Prop :=
  ∀ (s : State) (e : BusError), s.inFlight = none → s.lifecycle = .notStarted → s.failsAt 0 e →
    exec .initializeReq s = .next
      { s with lifecycle := .failed, answers := s.answers.drop 1,
               trace := s.trace ++ [.connect s.addr s.bus (.err e), .response (.err (.transportError e))] }

/-- R71 after event 0: a write that fails, at whichever of the 24, ends the bring-up: no later event, `Failed`, the
connection kept (that it is kept is decision D16). Downstream phase, lines, display, cursor and content are then
`Unknown`, whichever unit failed, a raw nibble among them (R89), and `ifmode` is kept, which is log entry 9 (DEDUCED).
The effect of the writes before it is the model's ghost state: log entries 8 and 24. -/
def Obligations.InitializeFailsAtAWrite : Prop :=
  ∀ (s : State) (h : Handle) (k : Nat) (e : BusError) (a : Action), s.inFlight = none →
    s.lifecycle = .notStarted → s.answerAt 0 = some (.ok h) → 0 < k →
    callAt k (initializeActions s.cfg) = some a → s.failsAt k e →
    exec .initializeReq s = .next
      { s with lifecycle := .failed, conn := some h, answers := s.answers.drop (k + 1),
               trace := s.trace ++ (beforeCall k (initializeActions s.cfg)).map (s.okEvent h)
                 ++ [s.errEvent e a, .response (.err (.transportError e))],
               lcd := (Lcd.ran s.cfg.enMask s.lcd (beforeCall k (initializeActions s.cfg))).loseSync }

/-- R22, R28, R95: a bring-up whose call number `k` does not return shows `Bootstrapping`; it has issued the events of
R70 before that call and none after it, has returned no response, and stays in flight at that index. It holds no new
handle while `Connect` waits, and `Connect`'s afterwards. While a write waits, the frame value and RS are those of
that write (R29, R59), and from call 9 on, where the bytes begin, `b` is the byte being sent. That the waiting call
has no event yet is log entry 20, that a waiting write has not acted downstream yet log entry 22 (DESIGN CHOICE each).
The effect downstream is the model's ghost state: log entries 8 and 24. -/
def Obligations.UnansweredBringUpIsBootstrapping : Prop :=
  ∀ (s : State) (k : Nat) (h : Handle), s.inFlight = none → s.lifecycle = .notStarted → k < 25 → s.hangsAt k →
    (k = 0 ∨ s.answerAt 0 = some (.ok h)) →
    ∃ (list : List Slot) (dp : Datapath), list.map Slot.act = initializeActions s.cfg ∧
      exec .initializeReq s = .next
        { s with lifecycle := .bootstrapping, conn := if k = 0 then s.conn else some h,
                 answers := s.answers.drop k,
                 trace := s.trace ++ (beforeCall k (initializeActions s.cfg)).map (s.okEvent h),
                 lcd := Lcd.ran s.cfg.enMask s.lcd (beforeCall k (initializeActions s.cfg)),
                 inFlight := some ⟨.initializeReq, list, (beforeCall k (initializeActions s.cfg)).length, dp⟩ } ∧
      (0 < k → ∃ now, callAt k (initializeActions s.cfg) = some (.write now) ∧
        dp.v = enClear s.cfg.enMask now ∧ dp.rs = rsOf now) ∧
      (9 ≤ k → ∃ first second now,
        callAt (9 + 4 * ((k - 9) / 4)) (initializeActions s.cfg) = some (.write first) ∧
        callAt (9 + 4 * ((k - 9) / 4) + 2) (initializeActions s.cfg) = some (.write second) ∧
        callAt k (initializeActions s.cfg) = some (.write now) ∧
        dp = .ofWrites s.cfg.enMask first second now)

/-- R68: `initialize` anywhere but in `NotStarted` returns `StateError` and does nothing else (decision D5). -/
def Obligations.InitializeRunsOnce : Prop :=
  ∀ s : State, s.inFlight = none → s.lifecycle ≠ .notStarted →
    exec .initializeReq s =
      .next { s with trace := s.trace ++ [.response (.err (.stateError s.lifecycle))] }

/-- R74, decision D7: with no `SHUTDOWN_ACTIONS`, and outside `Ready` whatever they are, `shutdown` returns `Ok` with
no port event and changes nothing. -/
def Obligations.ShutdownWithoutActionsIsSilent : Prop :=
  ∀ s : State, s.inFlight = none → (s.lifecycle ≠ .ready ∨ s.cfg.shutdownActions = []) →
    exec .shutdown s = .next { s with trace := s.trace ++ [.response .ok] }

/-- R74, decision D7: in `Ready` `shutdown` runs `SHUTDOWN_ACTIONS`, to its end, to the first write that fails, or to
a write that does not return, and writes no register. The model's own here: that the list holds writes and delays only
is log entry 10; `v` and RS of a waiting write, which R29 does not give, are log entry 3 (DESIGN CHOICE); that the
waiting write has no event yet is log entry 20, that it has not acted downstream yet log entry 22, and that bits other
than nibble, RS and EN mean nothing downstream log entry 23 (DESIGN CHOICE each). What the writes do downstream, an
unpaired or mixed pulse and missing waits among them, is the model's ghost state, log entries 8, 18 and 24; after a
failed write phase, lines, display, cursor and content are `Unknown` (R89, R114) and `ifmode` is kept, which is log
entry 9 (DEDUCED). -/
def Obligations.ShutdownRunsItsActions : Prop :=
  ∀ s : State, s.inFlight = none → s.lifecycle = .ready →
    (s.okCalls (calls (s.cfg.shutdownActions.map portAction)) →
      exec .shutdown s = .next (s.ran (s.cfg.shutdownActions.map portAction) .ok)) ∧
    (∀ (k : Nat) (e : BusError) (a : Action), callAt k (s.cfg.shutdownActions.map portAction) = some a →
      s.failsAt k e →
      exec .shutdown s = .next (s.stopped (s.cfg.shutdownActions.map portAction) k a e)) ∧
    (∀ (k : Nat) (a : Action), callAt k (s.cfg.shutdownActions.map portAction) = some a → s.hangsAt k →
      ∃ (list : List Slot) (dp : Datapath) (now : Byte), list.map Slot.act = s.cfg.shutdownActions.map portAction ∧
        a = .write now ∧ dp.v = enClear s.cfg.enMask now ∧ dp.rs = rsOf now ∧
        exec .shutdown s = .next
          { s with answers := s.answers.drop k,
                   trace := s.trace ++ (beforeCall k (s.cfg.shutdownActions.map portAction)).map (s.okEvent 0),
                   lcd := Lcd.ran s.cfg.enMask s.lcd (beforeCall k (s.cfg.shutdownActions.map portAction)),
                   inFlight := some ⟨.shutdown, list,
                     (beforeCall k (s.cfg.shutdownActions.map portAction)).length, dp⟩ })

/-- R75: `identity` returns `Ok(name)` in every lifecycle state, with no port event (decision D8). -/
def Obligations.IdentityReturnsTheName : Prop :=
  ∀ s : State, s.inFlight = none →
    exec .identity s = .next { s with trace := s.trace ++ [.response (.okName s.name)] }

/-- R67, R33: what construction leaves, for every override, configuration and transport. -/
def Obligations.ConstructionCapturesConfiguration : Prop :=
  ∀ (p : Params) (o : Options) (answers : List Answer) (standing : Option Answer),
    let s := State.construct p o answers standing
    s.lifecycle = .notStarted ∧ s.conn = none ∧ s.name = p.name ∧ s.trace = [] ∧ s.inFlight = none ∧
      (o.addr = none → s.addr = 0x00) ∧ (∀ a, o.addr = some a → s.addr = a) ∧
      (o.bus = none → s.bus = p.defaultBus) ∧ (∀ b, o.bus = some b → s.bus = b) ∧
      s.lcd.ifmode = .unknown ∧ s.displayUnknown

/-! ### The whole machine -/

/-- The invariant holds after every construction. -/
def Obligations.ConstructionMeetsTheInvariant : Prop :=
  ∀ (p : Params) (o : Options) (answers : List Answer) (standing : Option Answer),
    (State.construct p o answers standing).Inv

/-- Every step keeps the invariant (R22, R26, R27, R68): among it, `Ready` implies a connection, and `Bootstrapping` an
`initialize` in flight. -/
def Obligations.StepKeepsTheInvariant : Prop :=
  ∀ s t : State, s.Inv → step s = .next t → t.Inv

/-- R21: only an accepted `initialize` moves the lifecycle register, and only out of `NotStarted`. -/
def Obligations.OnlyInitializeMovesTheLifecycle : Prop :=
  ∀ (i : Instr) (s t : State), exec i s = .next t → t.lifecycle ≠ s.lifecycle →
    i = .initializeReq ∧ s.lifecycle = .notStarted

/-- R21: in a legal state a step moves the lifecycle register along the table, one row or the rows of a whole bring-up;
`Ready` and `Failed` are terminal. -/
def Obligations.LifecycleFollowsItsTable : Prop :=
  ∀ s t : State, s.Inv → step s = .next t → legalMove s.lifecycle t.lifecycle = true

/-- R23 to R25: the configuration registers never change after construction. -/
def Obligations.ConfigurationNeverChanges : Prop :=
  ∀ s t : State, step s = .next t →
    t.addr = s.addr ∧ t.bus = s.bus ∧ t.name = s.name ∧ t.cfg = s.cfg

/-- R26: "the connection handle, once established, is immutable for the driver's lifetime". -/
def Obligations.ConnectionIsImmutable : Prop :=
  ∀ (s t : State) (h : Handle), s.Inv → s.conn = some h → step s = .next t → t.conn = some h

/-- R35: `Connect` "is issued exactly once in the block's lifetime": never a second time, along every legal run. -/
def Obligations.ConnectIsIssuedAtMostOnce : Prop :=
  ∀ s t : State, s.Inv → s.connectedOnce → step s = .next t → t.connectedOnce

/-- R34, R48: a step only adds to the trace, and every call it adds goes to the one target `(addr, bus)`. -/
def Obligations.EveryCallGoesToTheOneTarget : Prop :=
  ∀ s t : State, step s = .next t →
    ∃ ev, t.trace = s.trace ++ ev ∧ ∀ e ∈ ev, e.onTarget s.addr s.bus = true

/-- R12: a request returns exactly one response, after all its events; while it is in flight it has returned none. For
every instruction that `exec` runs, and for every step that goes on with a request in flight. -/
def Obligations.ExactlyOneResponse : Prop :=
  ∀ s t : State, (∀ i : Instr, exec i s = .next t → s.answeredOnce t) ∧
    (s.inFlight ≠ none → step s = .next t → s.answeredOnce t)

/-- R36: a bus write is issued only over a connection, in a bring-up after its `Connect` or in `Ready`. In a legal state
an instruction or a step that leaves no connection has written nothing, and neither has an instruction other than
`initialize` where R36 lets no write be issued; there a controller unit or a framer primitive returns `StateError` and
the response is all that happens (that it is this error is log entry 11, DESIGN CHOICE). -/
def Obligations.WritesGoOverAConnection : Prop :=
  (∀ (i : Instr) (s t : State), s.Inv → exec i s = .next t →
    (t.conn = none ∨ (i ≠ .initializeReq ∧ s.mayWrite = false)) →
      writtenBytes t.trace = writtenBytes s.trace) ∧
  (∀ s t : State, s.Inv → step s = .next t → t.conn = none → writtenBytes t.trace = writtenBytes s.trace) ∧
  (∀ (i : Instr) (s : State), isHostRequest i = false → s.inFlight = none → s.mayWrite = false →
    exec i s = .next { s with trace := s.trace ++ [.response (.err (.stateError s.lifecycle))] })

/-- R91: after a port call that is answered `err(e)` a request issues no other event and returns `TransportError(e)`,
`e` unchanged; `initialize` is left `Failed`, every other request leaves the lifecycle it found. No request returns
`TransportError` without such a call. For every instruction that `exec` runs, and for every step that goes on with a
request in flight. -/
def Obligations.FailingCallEndsTheRequest : Prop :=
  ∀ s t : State, (∀ i : Instr, exec i s = .next t → s.endsAtFailure i t) ∧
    (∀ f : InFlight, s.inFlight = some f → step s = .next t → s.endsAtFailure f.req t)

/-- R38: `Delay(t)` completes whatever the transport does, and leaves only its event. -/
def Obligations.DelayAlwaysCompletes : Prop :=
  ∀ (s : State) (t : Nat), s.issue (.delay t) = .ok { s with trace := s.trace ++ [.delay t] }

/-- R110, R111 (R79): along every run with no `SHUTDOWN_ACTIONS` the trace stays framed: an EN-set write is followed by
exactly the enable-pulse delay and the EN-clear write of the same value, and that by the settle delay, before any
other write. -/
def Obligations.StepKeepsTheTraceFramed : Prop :=
  ∀ s t : State, s.Framed → step s = .next t → t.Framed

/-- The empty trace of a new block is framed. -/
def Obligations.ConstructionIsFramed : Prop :=
  ∀ (p : Params) (o : Options) (answers : List Answer) (standing : Option Answer), p.shutdownActions = [] →
    (State.construct p o answers standing).Framed

/-! ### The downstream controller (ghost state) -/

/-- R89: a bring-up that completes leaves the controller in 4-bit mode, expecting a high nibble, 2-line, on, cleared,
with the cursor at row 0, column 0. The ghost fields behind it are log entry 8, and that a write that comes before its
wait is over counts as any other is log entry 24. -/
def Obligations.BringUpCommitsTheController : Prop :=
  ∀ (s t : State), s.inFlight = none → s.lifecycle = .notStarted → s.okCalls 25 → s.lcd.ifmode = .unknown →
    s.lcd.lost = false → exec .initializeReq s = .next t →
    t.inStep ∧ t.lcd.lines = .two ∧ t.lcd.display = .on ∧ t.lcd.cursor = some 0x00 ∧ t.lcd.content = .blank

/-- R89's rows of command 0x01, command 0x02, set-address and data, from a controller in step: what each changes, what
it leaves, and that the controller is in step again (R32). A string has the effect of its data bytes, and the empty
string none. That set-address keeps the content is log entry 18 (DEDUCED); the ghost fields behind `inStep` are log
entry 8. That a write that comes before its wait is over counts as any other is log entry 24. -/
def Obligations.DisplayRequestsHaveTheirDownstreamEffect : Prop :=
  ∀ (s : State), s.inFlight = none → s.lifecycle = .ready → s.okCalls 4 → s.inStep →
    (∀ t, exec .clear s = .next t →
      t.inStep ∧ t.lcd.cursor = some 0x00 ∧ t.lcd.content = .blank ∧ t.lcd.lines = s.lcd.lines ∧
        t.lcd.display = s.lcd.display) ∧
    (∀ t, exec .home s = .next t →
      t.inStep ∧ t.lcd.cursor = some 0x00 ∧ t.lcd.content = s.lcd.content ∧ t.lcd.lines = s.lcd.lines ∧
        t.lcd.display = s.lcd.display) ∧
    (∀ (row col : Int) t, (row = 0 ∨ row = 1) → 0 ≤ col → col ≤ 15 → exec (.setCursor row col) s = .next t →
      t.inStep ∧ t.lcd.cursor = some (BitVec.ofNat 7 (col.toNat + (if row = 0 then 0x00 else 0x40))) ∧
        t.lcd.content = s.lcd.content ∧ t.lcd.lines = s.lcd.lines ∧ t.lcd.display = s.lcd.display) ∧
    (∀ (c : Nat) t, c ≤ 0x10FFFF → exec (.writeChar c) s = .next t →
      t.inStep ∧ t.lcd.cursor = none ∧ t.lcd.lines = s.lcd.lines ∧ t.lcd.display = s.lcd.display) ∧
    (∀ (cs : List Nat) t, cs ≠ [] → (∀ c ∈ cs, c ≤ 0x10FFFF) → s.okCalls (4 * cs.length) →
      exec (.writeString cs) s = .next t →
      t.inStep ∧ t.lcd.cursor = none ∧ t.lcd.lines = s.lcd.lines ∧ t.lcd.display = s.lcd.display) ∧
    (∀ t, exec (.writeString []) s = .next t → t.lcd = s.lcd)

/-- R89's rows of the command units and of the data unit, from a controller in step, sent as units of their own: what
each changes, what it leaves, and that the controller is in step again (R32); `sendData` as the data unit, and
`sendCommand` of whatever byte leaves it in step. That units and primitives run on their own where R36 lets a write be
issued is log entry 11 (DESIGN CHOICE), that set-address keeps the content is log entry 18 (DEDUCED), the ghost fields
behind `inStep` are log entry 8. That a write that comes before its wait is over counts as any other is log entry 24.
-/
def Obligations.UnitsHaveTheirDownstreamEffect : Prop :=
  ∀ (s : State), s.inFlight = none → s.mayWrite = true → s.okCalls 4 → s.inStep →
    (∀ t, exec .cmdFunctionSet2line s = .next t →
      t.inStep ∧ t.lcd.lines = .two ∧ t.lcd.display = s.lcd.display ∧ t.lcd.cursor = s.lcd.cursor ∧
        t.lcd.content = s.lcd.content) ∧
    (∀ t, exec .cmdDisplayOn s = .next t →
      t.inStep ∧ t.lcd.display = .on ∧ t.lcd.lines = s.lcd.lines ∧ t.lcd.cursor = s.lcd.cursor ∧
        t.lcd.content = s.lcd.content) ∧
    (∀ t, exec .cmdClear s = .next t →
      t.inStep ∧ t.lcd.cursor = some 0x00 ∧ t.lcd.content = .blank ∧ t.lcd.lines = s.lcd.lines ∧
        t.lcd.display = s.lcd.display) ∧
    (∀ t, exec .cmdHome s = .next t →
      t.inStep ∧ t.lcd.cursor = some 0x00 ∧ t.lcd.content = s.lcd.content ∧ t.lcd.lines = s.lcd.lines ∧
        t.lcd.display = s.lcd.display) ∧
    (∀ (a : BitVec 7) t, exec (.cmdSetDdramAddress a) s = .next t →
      t.inStep ∧ t.lcd.cursor = some a ∧ t.lcd.content = s.lcd.content ∧ t.lcd.lines = s.lcd.lines ∧
        t.lcd.display = s.lcd.display) ∧
    (∀ (d : Byte) t, (exec (.dataChar d) s = .next t ∨ exec (.sendData d) s = .next t) →
      t.inStep ∧ t.lcd.cursor = none ∧ t.lcd.lines = s.lcd.lines ∧ t.lcd.display = s.lcd.display) ∧
    (∀ (b : Byte) t, exec (.sendCommand b) s = .next t → t.inStep)

/-- R114: after a request that returns a TransportError of a write nothing is known of the display (decision D19). The
field `lost` is log entry 8. -/
def Obligations.FailedRequestLosesTheDisplay : Prop :=
  ∀ (s t : State) (i : Instr) (L : List Action) (k : Nat) (e : BusError), s.inFlight = none →
    s.lifecycle = .ready → displayActions s.cfg i = some L → k < calls L → s.failsAt k e → exec i s = .next t →
    t.displayUnknown ∧ t.lcd.lost = true ∧ t.lifecycle = .ready

/-- R89, R114: once that has happened, no later step learns anything of the display again (decision D19; that `ifmode`
stays is log entry 9). The field `lost` is log entry 8. -/
def Obligations.LostDisplayStaysLost : Prop :=
  ∀ s t : State, s.lcd.lost = true → s.displayUnknown → step s = .next t →
    t.lcd.lost = true ∧ t.displayUnknown ∧ t.lcd.ifmode = s.lcd.ifmode

/-- R109: before `initialize` has been accepted every field of R31 is `Unknown`, `ifmode` among them; every step keeps
that, in every legal state and whatever item it executes. And nothing is known of the display (R31) while `ifmode` is
`Unknown` or the display was lost, along every run; that `lost` marks it, and that `ifmode` survives an error, are the
model's log entries 8 and 9. -/
def Obligations.NothingIsKnownBeforeBringUp : Prop :=
  ∀ s t : State, step s = .next t →
    (s.Inv → (s.lifecycle = .notStarted → s.lcd.ifmode = .unknown ∧ s.displayUnknown) →
      t.Inv ∧ (t.lifecycle = .notStarted → t.lcd.ifmode = .unknown ∧ t.displayUnknown)) ∧
    ((s.lcd.ifmode = .unknown ∨ s.lcd.lost = true → s.displayUnknown) →
      (t.lcd.ifmode = .unknown ∨ t.lcd.lost = true → t.displayUnknown))

/-! ### Counts and nominal timing -/

/-- The machine's action lists are the lists the other statements print, for every configuration (R69, R70, R76 to R78,
R82, R83, R87), and with the default timing they have the counts and nominal delay sums of R70 and R117. -/
def Obligations.NominalTimingOfTheLists : Prop :=
  (∀ p : Params, (bringUpSeq p).map Slot.act = initializeActions p ∧ (clearSeq p).map Slot.act = clearActions p ∧
    (homeSeq p).map Slot.act = homeActions p ∧
    (∀ b : Byte, (commandSeq p b).map Slot.act = commandActions p b.toNat ∧
      (dataSeq p b).map Slot.act = dataActions p b.toNat) ∧
    (∀ cs : List Nat, (stringSeq p cs).map Slot.act = stringActions p cs)) ∧
  (((bringUpSeq Config.defaults).map Slot.act).length = 55 ∧
    calls ((bringUpSeq Config.defaults).map Slot.act) = 25 ∧
    nominalDelay ((bringUpSeq Config.defaults).map Slot.act) = 1018112) ∧
  nominalDelay ((clearSeq Config.defaults).map Slot.act) = 2102 ∧
  nominalDelay ((homeSeq Config.defaults).map Slot.act) = 2102 ∧
  (∀ b : Byte, nominalDelay ((commandSeq Config.defaults b).map Slot.act) = 102 ∧
    calls ((commandSeq Config.defaults b).map Slot.act) = 4) ∧
  (∀ cs : List Nat, nominalDelay ((stringSeq Config.defaults cs).map Slot.act) = 102 * cs.length ∧
    calls ((stringSeq Config.defaults cs).map Slot.act) = 4 * cs.length ∧
    ((stringSeq Config.defaults cs).map Slot.act).length = 8 * cs.length)
end

