-- ==== Sys2Proof/Laws/State.lean ====
section
/-! SUPPORT. One lemma per field for each update that the shared operations make, so that no proof unfolds a record
update. -/

namespace Sys2Proof.Machine

section Emit
variable (s : State) (e : Event)

@[simp] theorem State.emit_lifecycle : (s.emit e).lifecycle = s.lifecycle := rfl
@[simp] theorem State.emit_addr : (s.emit e).addr = s.addr := rfl
@[simp] theorem State.emit_bus : (s.emit e).bus = s.bus := rfl
@[simp] theorem State.emit_name : (s.emit e).name = s.name := rfl
@[simp] theorem State.emit_conn : (s.emit e).conn = s.conn := rfl
@[simp] theorem State.emit_cfg : (s.emit e).cfg = s.cfg := rfl
@[simp] theorem State.emit_inFlight : (s.emit e).inFlight = s.inFlight := rfl
@[simp] theorem State.emit_port : (s.emit e).port = s.port := rfl
@[simp] theorem State.emit_answers : (s.emit e).answers = s.answers := rfl
@[simp] theorem State.emit_standing : (s.emit e).standing = s.standing := rfl
@[simp] theorem State.emit_trace : (s.emit e).trace = s.trace ++ [e] := rfl
@[simp] theorem State.emit_lcd : (s.emit e).lcd = s.lcd := rfl

end Emit

section Respond
variable (s : State) (r : Response)

@[simp] theorem State.respond_lifecycle : (s.respond r).lifecycle = s.lifecycle := rfl
@[simp] theorem State.respond_addr : (s.respond r).addr = s.addr := rfl
@[simp] theorem State.respond_bus : (s.respond r).bus = s.bus := rfl
@[simp] theorem State.respond_name : (s.respond r).name = s.name := rfl
@[simp] theorem State.respond_conn : (s.respond r).conn = s.conn := rfl
@[simp] theorem State.respond_cfg : (s.respond r).cfg = s.cfg := rfl
@[simp] theorem State.respond_inFlight : (s.respond r).inFlight = s.inFlight := rfl
@[simp] theorem State.respond_port : (s.respond r).port = s.port := rfl
@[simp] theorem State.respond_answers : (s.respond r).answers = s.answers := rfl
@[simp] theorem State.respond_standing : (s.respond r).standing = s.standing := rfl
@[simp] theorem State.respond_trace : (s.respond r).trace = s.trace ++ [.response r] := rfl
@[simp] theorem State.respond_lcd : (s.respond r).lcd = s.lcd := rfl

end Respond

/-- Raising an error is returning it (R98). -/
theorem State.raise_eq (s : State) (e : Err) : s.raise e = s.respond (.err e) := rfl

section SettleLifecycle
variable (s : State) (req : Instr) (l : Lifecycle)

@[simp] theorem State.settleLifecycle_addr : (s.settleLifecycle req l).addr = s.addr := by
  unfold State.settleLifecycle; split <;> rfl
@[simp] theorem State.settleLifecycle_bus : (s.settleLifecycle req l).bus = s.bus := by
  unfold State.settleLifecycle; split <;> rfl
@[simp] theorem State.settleLifecycle_name : (s.settleLifecycle req l).name = s.name := by
  unfold State.settleLifecycle; split <;> rfl
@[simp] theorem State.settleLifecycle_conn : (s.settleLifecycle req l).conn = s.conn := by
  unfold State.settleLifecycle; split <;> rfl
@[simp] theorem State.settleLifecycle_cfg : (s.settleLifecycle req l).cfg = s.cfg := by
  unfold State.settleLifecycle; split <;> rfl
@[simp] theorem State.settleLifecycle_inFlight : (s.settleLifecycle req l).inFlight = s.inFlight := by
  unfold State.settleLifecycle; split <;> rfl
@[simp] theorem State.settleLifecycle_port : (s.settleLifecycle req l).port = s.port := by
  unfold State.settleLifecycle; split <;> rfl
@[simp] theorem State.settleLifecycle_answers : (s.settleLifecycle req l).answers = s.answers := by
  unfold State.settleLifecycle; split <;> rfl
@[simp] theorem State.settleLifecycle_standing : (s.settleLifecycle req l).standing = s.standing := by
  unfold State.settleLifecycle; split <;> rfl
@[simp] theorem State.settleLifecycle_trace : (s.settleLifecycle req l).trace = s.trace := by
  unfold State.settleLifecycle; split <;> rfl
@[simp] theorem State.settleLifecycle_lcd : (s.settleLifecycle req l).lcd = s.lcd := by
  unfold State.settleLifecycle; split <;> rfl
@[simp] theorem State.settleLifecycle_initialize :
    (s.settleLifecycle .initializeReq l).lifecycle = l := rfl

/-- Only `initialize` writes the lifecycle register (R21). -/
theorem State.settleLifecycle_of_ne (h : req ≠ .initializeReq) : s.settleLifecycle req l = s := by
  simp [State.settleLifecycle, h]

end SettleLifecycle

section Reset

@[simp] theorem State.construct_lifecycle (p : Params) (o : Options) (a : List Answer) (d : Option Answer) :
    (State.construct p o a d).lifecycle = .notStarted := rfl
@[simp] theorem State.construct_conn (p : Params) (o : Options) (a : List Answer) (d : Option Answer) :
    (State.construct p o a d).conn = none := rfl
@[simp] theorem State.construct_inFlight (p : Params) (o : Options) (a : List Answer) (d : Option Answer) :
    (State.construct p o a d).inFlight = none := rfl
@[simp] theorem State.construct_trace (p : Params) (o : Options) (a : List Answer) (d : Option Answer) :
    (State.construct p o a d).trace = [] := rfl
@[simp] theorem State.construct_lcd (p : Params) (o : Options) (a : List Answer) (d : Option Answer) :
    (State.construct p o a d).lcd = Lcd.reset := rfl

end Reset

/-- Losing sync keeps `ifmode` (log entry 9) and, once it has happened, changes nothing more. -/
@[simp] theorem Lcd.loseSync_lost (l : Lcd) : l.loseSync.lost = true := rfl
@[simp] theorem Lcd.loseSync_ifmode (l : Lcd) : l.loseSync.ifmode = l.ifmode := rfl
@[simp] theorem Lcd.loseSync_idem (l : Lcd) : l.loseSync.loseSync = l.loseSync := rfl

end Sys2Proof.Machine
end

