-- ==== Sys2Proof/Laws/Ops.lean ====
section
/-! SUPPORT. For each shared operation, once, everything it can do: the transport's answers, one action, the sequencer
run to its end, to a failure or to a call that never returns, and the acceptance of a request. -/

namespace Sys2Proof.Machine

/-! ### Answers -/

/-- Taking an answer takes the transport's next one. -/
theorem State.takeAnswer_eq (s : State) :
    s.takeAnswer = (s.answerAt 0).map (fun a => (a, { s with answers := s.answers.drop 1 })) := by
  rcases s with ⟨_, _, _, _, _, _, _, _, answers, standing, _, _⟩
  cases answers <;> simp [State.takeAnswer, State.answerAt]

/-- After `n` answers are used up, the next is number `n`. -/
theorem State.answerAt_of_drop {s t : State} {n : Nat} (ha : t.answers = s.answers.drop n)
    (hs : t.standing = s.standing) (k : Nat) : t.answerAt k = s.answerAt (n + k) := by
  simp [State.answerAt, ha, hs, List.getElem?_drop]

/-- `okCalls` after the first `n` answers are used up. -/
theorem State.okCalls_of_drop {s t : State} {n m : Nat} (ha : t.answers = s.answers.drop n)
    (hs : t.standing = s.standing) (h : s.okCalls (n + m)) : t.okCalls m := by
  intro k hk
  rw [State.answerAt_of_drop ha hs]
  exact h _ (by omega)

theorem State.okCalls_mono {s : State} {n m : Nat} (h : s.okCalls n) (hm : m ≤ n) : s.okCalls m :=
  fun k hk => h k (by omega)

/-! ### One action -/

theorem State.issue_delay (s : State) (t : Nat) : s.issue (.delay t) = .ok (s.emit (.delay t)) := rfl

theorem State.issue_write_ok {s : State} {h : Handle} (v : Byte) (ha : s.answerAt 0 = some (.ok h)) :
    s.issue (.write v) = .ok ({ s with answers := s.answers.drop 1, lcd := s.lcd.onWrite s.cfg.enMask v }.emit
      (.write s.addr s.bus v .ok)) := by
  simp [State.issue, State.issueWrite, State.takeAnswer_eq, ha]

theorem State.issue_write_err {s : State} {e : BusError} (v : Byte) (ha : s.answerAt 0 = some (.err e)) :
    s.issue (.write v) = .err e ({ s with answers := s.answers.drop 1, lcd := s.lcd.loseSync }.emit
      (.write s.addr s.bus v (.err e))) := by
  simp [State.issue, State.issueWrite, State.takeAnswer_eq, ha]

theorem State.issue_connect_ok {s : State} {h : Handle} (ha : s.answerAt 0 = some (.ok h)) :
    s.issue .connect = .ok ({ s with answers := s.answers.drop 1, conn := some h }.emit
      (.connect s.addr s.bus (.ok h))) := by
  simp [State.issue, State.issueConnect, State.takeAnswer_eq, ha]

theorem State.issue_connect_err {s : State} {e : BusError} (ha : s.answerAt 0 = some (.err e)) :
    s.issue .connect = .err e ({ s with answers := s.answers.drop 1 }.emit (.connect s.addr s.bus (.err e))) := by
  simp [State.issue, State.issueConnect, State.takeAnswer_eq, ha]

theorem State.issue_call_blocked {s : State} {a : Action} (hc : a.isCall = true) (ha : s.answerAt 0 = none) :
    s.issue a = .blocked := by
  cases a <;> simp_all [State.issue, State.issueConnect, State.issueWrite, State.takeAnswer_eq, Action.isCall]

theorem State.issue_blocked_inv {s : State} {a : Action} (h : s.issue a = .blocked) :
    a.isCall = true ∧ s.answerAt 0 = none := by
  rcases hn : s.answerAt 0 with _ | r
  · cases a with
    | delay t => simp [State.issue_delay] at h
    | connect => exact ⟨rfl, rfl⟩
    | write v => exact ⟨rfl, rfl⟩
  · cases a with
    | delay t => simp [State.issue_delay] at h
    | connect => cases r <;> simp [State.issue_connect_ok, State.issue_connect_err, hn] at h
    | write v => cases r <;> simp [State.issue_write_ok, State.issue_write_err, hn] at h

/-- What holds of an action whichever way it ends: the fields it leaves alone, and the one event it adds. -/
structure State.SameBlock (s t : State) : Prop where
  lifecycle : t.lifecycle = s.lifecycle
  addr      : t.addr = s.addr
  bus       : t.bus = s.bus
  name      : t.name = s.name
  cfg       : t.cfg = s.cfg
  inFlight  : t.inFlight = s.inFlight
  port      : t.port = s.port
  standing  : t.standing = s.standing
  trace     : ∃ ev, t.trace = s.trace ++ ev ∧ (∀ e ∈ ev, e.onTarget s.addr s.bus = true) ∧ responses ev = []

theorem State.SameBlock.refl (s : State) : s.SameBlock s :=
  ⟨rfl, rfl, rfl, rfl, rfl, rfl, rfl, rfl, [], by simp [responses]⟩

theorem State.SameBlock.trans {s t u : State} (h : s.SameBlock t) (k : t.SameBlock u) : s.SameBlock u := by
  obtain ⟨ev, he, ht, hr⟩ := h.trace
  obtain ⟨ev', he', ht', hr'⟩ := k.trace
  refine ⟨k.lifecycle.trans h.lifecycle, k.addr.trans h.addr, k.bus.trans h.bus, k.name.trans h.name,
    k.cfg.trans h.cfg, k.inFlight.trans h.inFlight, k.port.trans h.port, k.standing.trans h.standing,
    ev ++ ev', by rw [he', he, List.append_assoc], ?_, ?_⟩
  · intro e hm
    rcases List.mem_append.mp hm with hm | hm
    · exact ht e hm
    · rw [← h.addr, ← h.bus]; exact ht' e hm
  · unfold responses at *; rw [List.filterMap_append, hr, hr', List.append_nil]

/-- An action changes only the answers, the trace, `conn` and the downstream state. -/
theorem State.issue_sameBlock {s t : State} {a : Action} (h : s.issue a = .ok t ∨ ∃ e, s.issue a = .err e t) :
    s.SameBlock t := by
  rcases hn : s.answerAt 0 with _ | r
  · cases a with
    | delay d =>
      simp [State.issue_delay] at h
      subst h
      exact ⟨rfl, rfl, rfl, rfl, rfl, rfl, rfl, rfl, [.delay d], rfl, by simp [Event.onTarget], rfl⟩
    | connect => simp [State.issue_call_blocked (a := .connect) rfl hn] at h
    | write v => simp [State.issue_call_blocked (a := .write v) rfl hn] at h
  · cases a with
    | delay d =>
      simp [State.issue_delay] at h
      subst h
      exact ⟨rfl, rfl, rfl, rfl, rfl, rfl, rfl, rfl, [.delay d], rfl, by simp [Event.onTarget], rfl⟩
    | connect =>
      cases r with
      | ok c =>
        simp [State.issue_connect_ok hn] at h
        subst h
        exact ⟨rfl, rfl, rfl, rfl, rfl, rfl, rfl, rfl, [.connect s.addr s.bus (.ok c)], rfl,
          by simp [Event.onTarget], rfl⟩
      | err e =>
        simp [State.issue_connect_err hn] at h
        subst h
        exact ⟨rfl, rfl, rfl, rfl, rfl, rfl, rfl, rfl, [.connect s.addr s.bus (.err e)], rfl,
          by simp [Event.onTarget], rfl⟩
    | write v =>
      cases r with
      | ok c =>
        simp [State.issue_write_ok v hn] at h
        subst h
        exact ⟨rfl, rfl, rfl, rfl, rfl, rfl, rfl, rfl, [.write s.addr s.bus v .ok], rfl,
          by simp [Event.onTarget], rfl⟩
      | err e =>
        simp [State.issue_write_err v hn] at h
        subst h
        exact ⟨rfl, rfl, rfl, rfl, rfl, rfl, rfl, rfl, [.write s.addr s.bus v (.err e)], rfl,
          by simp [Event.onTarget], rfl⟩

/-- The connection register changes in one way only: a `Connect` that answered `ok` (R26). -/
theorem State.issue_conn {s t : State} {a : Action} (h : s.issue a = .ok t ∨ ∃ e, s.issue a = .err e t) :
    t.conn = s.conn ∨ (a = .connect ∧ s.issue a = .ok t ∧ ∃ c, t.conn = some c) := by
  rcases hn : s.answerAt 0 with _ | r
  · cases a with
    | delay d => simp [State.issue_delay] at h; subst h; exact .inl rfl
    | connect => simp [State.issue_call_blocked (a := .connect) rfl hn] at h
    | write v => simp [State.issue_call_blocked (a := .write v) rfl hn] at h
  · cases a with
    | delay d => simp [State.issue_delay] at h; subst h; exact .inl rfl
    | connect =>
      cases r with
      | ok c =>
        simp [State.issue_connect_ok hn] at h
        subst h
        refine .inr ⟨rfl, ?_, c, rfl⟩
        rw [State.issue_connect_ok hn]
        simp
      | err e => simp [State.issue_connect_err hn] at h; subst h; exact .inl rfl
    | write v =>
      cases r with
      | ok c => simp [State.issue_write_ok v hn] at h; subst h; exact .inl rfl
      | err e => simp [State.issue_write_err v hn] at h; subst h; exact .inl rfl

/-! ### The sequencer -/

/-- The state a run ends in. -/
def RunEnd.state : RunEnd → State
  | .done s => s
  | .failed _ s => s
  | .blocked _ _ s => s

/-- Whichever way a run ends, it changed only the answers, the trace, `conn` and the downstream state. -/
theorem runFrom_sameBlock (L : List Slot) (q : Nat) (s : State) : s.SameBlock (runFrom L q s).state := by
  induction L generalizing q s with
  | nil => exact State.SameBlock.refl s
  | cons a rest ih =>
    unfold runFrom
    cases h : s.issue a.act with
    | ok t => exact (State.issue_sameBlock (.inl h)).trans (ih (q + 1) t)
    | err e t => exact State.issue_sameBlock (.inr ⟨e, h⟩)
    | blocked => exact State.SameBlock.refl s

/-- A list without `Connect` leaves the connection register alone. -/
theorem runFrom_conn_of_no_connect (L : List Slot) (q : Nat) (s : State) (hL : ∀ a ∈ L, a.act ≠ .connect) :
    (runFrom L q s).state.conn = s.conn := by
  induction L generalizing q s with
  | nil => rfl
  | cons a rest ih =>
    have ha : a.act ≠ .connect := hL a (by simp)
    have hrest : ∀ b ∈ rest, b.act ≠ .connect := fun b hb => hL b (by simp [hb])
    unfold runFrom
    cases h : s.issue a.act with
    | ok t =>
      have hc : t.conn = s.conn := (State.issue_conn (.inl h)).resolve_right (fun k => ha k.1)
      exact (ih (q + 1) t hrest).trans hc
    | err e t => exact (State.issue_conn (.inr ⟨e, h⟩)).resolve_right (fun k => ha k.1)
    | blocked => rfl

/-- The list of actions of a list of slots. -/
def acts (L : List Slot) : List Action := L.map Slot.act

@[simp] theorem acts_nil : acts [] = [] := rfl
@[simp] theorem acts_cons (a : Slot) (L : List Slot) : acts (a :: L) = a.act :: acts L := rfl
@[simp] theorem acts_append (L M : List Slot) : acts (L ++ M) = acts L ++ acts M := by simp [acts]

theorem calls_cons_delay (t : Nat) (L : List Action) : calls (.delay t :: L) = calls L := by
  simp [calls, Action.isCall]
theorem calls_cons_write (v : Byte) (L : List Action) : calls (.write v :: L) = calls L + 1 := by
  simp [calls, List.countP_cons, Action.isCall]
theorem calls_append (L M : List Action) : calls (L ++ M) = calls L + calls M := by simp [calls]

/-- Two states with one target record events alike. -/
theorem State.okEvent_congr {s t : State} (ha : t.addr = s.addr) (hb : t.bus = s.bus) (h : Handle) :
    t.okEvent h = s.okEvent h := by
  funext a; cases a <;> simp [State.okEvent, ha, hb]

theorem State.errEvent_congr {s t : State} (ha : t.addr = s.addr) (hb : t.bus = s.bus) (e : BusError) :
    t.errEvent e = s.errEvent e := by
  funext a; cases a <;> simp [State.errEvent, ha, hb]

theorem Lcd.ran_append (en : EnMask) (l : Lcd) (L M : List Action) :
    Lcd.ran en l (L ++ M) = Lcd.ran en (Lcd.ran en l L) M := by
  induction L generalizing l with
  | nil => rfl
  | cons a L ih => cases a <;> exact ih _

/-- `s` after the actions `L`, none of them a `Connect`, completed. -/
def State.went (s : State) (L : List Action) : State :=
  { s with answers := s.answers.drop (calls L), trace := s.trace ++ L.map (s.okEvent 0),
           lcd := Lcd.ran s.cfg.enMask s.lcd L }

@[simp] theorem State.went_nil (s : State) : s.went [] = s := by
  simp [State.went, calls, Lcd.ran]

theorem State.went_append (s : State) (L M : List Action) : s.went (L ++ M) = (s.went L).went M := by
  unfold State.went
  rw [calls_append, Lcd.ran_append, List.map_append, ← List.append_assoc, ← List.drop_drop]
  rfl

theorem State.answerAt_went (s : State) (L : List Action) (k : Nat) :
    (s.went L).answerAt k = s.answerAt (calls L + k) := State.answerAt_of_drop (s := s) (t := s.went L) rfl rfl k

theorem State.okCalls_went {s : State} {L : List Action} {n : Nat} (h : s.okCalls (calls L + n)) :
    (s.went L).okCalls n := State.okCalls_of_drop (s := s) (n := calls L) rfl rfl h

/-- An action that is no `Connect`, and is not turned away, completes. -/
theorem State.issue_went {s : State} {a : Action} (ha : a ≠ .connect) (h : s.okCalls (calls [a])) :
    s.issue a = .ok (s.went [a]) := by
  cases a with
  | connect => exact absurd rfl ha
  | delay t => rfl
  | write v =>
    obtain ⟨c, hc⟩ := h 0 (by simp [calls, Action.isCall])
    exact State.issue_write_ok v hc

/-- A list without `Connect` whose calls all answer `ok` runs to its end, and every event of it is in the trace. -/
theorem runFrom_done (L : List Slot) (q : Nat) (s : State) (hL : ∀ a ∈ L, a.act ≠ .connect)
    (h : s.okCalls (calls (acts L))) : runFrom L q s = .done (s.went (acts L)) := by
  induction L generalizing q s with
  | nil => simp [runFrom]
  | cons a rest ih =>
    have h' : s.okCalls (calls [a.act] + calls (acts rest)) := by
      rw [← calls_append]; exact h
    unfold runFrom
    rw [State.issue_went (hL a (by simp)) (State.okCalls_mono h' (by omega))]
    have hw : s.went (acts (a :: rest)) = (s.went [a.act]).went (acts rest) := State.went_append s [a.act] (acts rest)
    rw [hw]
    exact ih (q + 1) _ (fun b hb => hL b (by simp [hb])) (State.okCalls_went h')

/-- A list is run up to any of its points, and then from there. -/
theorem runFrom_append (L M : List Slot) (q : Nat) (s : State) :
    runFrom (L ++ M) q s =
      match runFrom L q s with
      | .done t => runFrom M (q + L.length) t
      | .failed e t => .failed e t
      | .blocked k dp t => .blocked k dp t := by
  induction L generalizing q s with
  | nil => simp [runFrom]
  | cons a L ih =>
    simp only [List.cons_append, runFrom, List.length_cons]
    cases s.issue a.act with
    | ok t => simp only [ih (q + 1) t]; simp [Nat.add_comm, Nat.add_left_comm]
    | err e t => rfl
    | blocked => rfl

/-- Call number `k` splits its list. -/
theorem callAt_split {L : List Slot} {k : Nat} {a : Action} (h : callAt k (acts L) = some a) :
    ∃ pre x post, L = pre ++ x :: post ∧ acts pre = beforeCall k (acts L) ∧ calls (acts pre) = k ∧
      x.act = a ∧ a.isCall = true := by
  induction L generalizing k with
  | nil => simp [callAt] at h
  | cons y L ih =>
    rcases y with ⟨act, dp⟩
    cases act with
    | delay t =>
      have h' : callAt k (acts L) = some a := by
        simpa [callAt, List.filter_cons, Action.isCall] using h
      obtain ⟨pre, x, post, hL, hb, hk, hx, hc⟩ := ih h'
      refine ⟨⟨.delay t, dp⟩ :: pre, x, post, by simp [hL], ?_, ?_, hx, hc⟩
      · simp [beforeCall, hb]
      · rw [acts_cons, calls_cons_delay, hk]
    | connect =>
      cases k with
      | zero =>
        have ha : Action.connect = a := by simpa [callAt, List.filter_cons, Action.isCall] using h
        exact ⟨[], ⟨.connect, dp⟩, L, rfl, rfl, rfl, ha, by rw [← ha]; rfl⟩
      | succ k =>
        have h' : callAt k (acts L) = some a := by
          simpa [callAt, List.filter_cons, Action.isCall] using h
        obtain ⟨pre, x, post, hL, hb, hk, hx, hc⟩ := ih h'
        refine ⟨⟨.connect, dp⟩ :: pre, x, post, by simp [hL], ?_, ?_, hx, hc⟩
        · simp [beforeCall, hb]
        · simp only [acts_cons]; rw [calls, List.countP_cons, ← calls, hk]; rfl
    | write v =>
      cases k with
      | zero =>
        have ha : Action.write v = a := by simpa [callAt, List.filter_cons, Action.isCall] using h
        exact ⟨[], ⟨.write v, dp⟩, L, rfl, rfl, rfl, ha, by rw [← ha]; rfl⟩
      | succ k =>
        have h' : callAt k (acts L) = some a := by
          simpa [callAt, List.filter_cons, Action.isCall] using h
        obtain ⟨pre, x, post, hL, hb, hk, hx, hc⟩ := ih h'
        refine ⟨⟨.write v, dp⟩ :: pre, x, post, by simp [hL], ?_, ?_, hx, hc⟩
        · simp [beforeCall, hb]
        · rw [acts_cons, calls_cons_write, hk]

/-- A list without `Connect` whose call number `k` answers `err(e)` ends there, with that error (R42, R91). -/
theorem runFrom_failed {L : List Slot} {q : Nat} {s : State} {k : Nat} {e : BusError} {a : Action}
    (hL : ∀ b ∈ L, b.act ≠ .connect) (hk : callAt k (acts L) = some a) (h : s.failsAt k e) :
    runFrom L q s = .failed e
      { s with answers := s.answers.drop (k + 1),
               trace := s.trace ++ (beforeCall k (acts L)).map (s.okEvent 0) ++ [s.errEvent e a],
               lcd := (Lcd.ran s.cfg.enMask s.lcd (beforeCall k (acts L))).loseSync } := by
  obtain ⟨pre, x, post, rfl, hb, hc, hx, hcall⟩ := callAt_split hk
  have hpre : ∀ b ∈ pre, b.act ≠ .connect := fun b hb' => hL b (by simp [hb'])
  have hxa : x.act ≠ .connect := hL x (by simp)
  rw [← hb, runFrom_append, runFrom_done pre q s hpre (by rw [hc]; exact h.1)]
  have he : (s.went (acts pre)).answerAt 0 = some (.err e) := by
    rw [State.answerAt_went, hc]; exact h.2
  simp only [runFrom]
  rw [hx] at hxa ⊢
  cases a with
  | connect => exact absurd rfl hxa
  | delay t => simp [Action.isCall] at hcall
  | write v =>
    rw [State.issue_write_err v he]
    simp [State.went, State.emit, hc, State.errEvent, List.drop_drop]

/-- A list without `Connect` whose call number `k` never returns stops there with that call's transient values, and
nothing after it is issued (R95). -/
theorem runFrom_blocked {L : List Slot} {q : Nat} {s : State} {k : Nat} {a : Action}
    (hL : ∀ b ∈ L, b.act ≠ .connect) (hk : callAt k (acts L) = some a) (h : s.hangsAt k) :
    ∃ pre x post, L = pre ++ x :: post ∧ acts pre = beforeCall k (acts L) ∧ calls (acts pre) = k ∧ x.act = a ∧
      runFrom L q s =
        .blocked (q + (beforeCall k (acts L)).length) x.dp (s.went (beforeCall k (acts L))) := by
  obtain ⟨pre, x, post, rfl, hb, hc, hx, hcall⟩ := callAt_split hk
  have hpre : ∀ b ∈ pre, b.act ≠ .connect := fun b hb' => hL b (by simp [hb'])
  refine ⟨pre, x, post, rfl, hb, hc, hx, ?_⟩
  rw [← hb, runFrom_append, runFrom_done pre q s hpre (by rw [hc]; exact h.1)]
  have he : (s.went (acts pre)).answerAt 0 = none := by
    rw [State.answerAt_went, hc]; exact h.2
  simp only [runFrom]
  rw [hx, State.issue_call_blocked hcall he]
  simp [acts]

/-- Whatever list it is, a run that blocked did so at one of its calls, with no answer left, having run what stands
before it. -/
theorem runFrom_blocked_inv {L : List Slot} {q k : Nat} {s u : State} {dp : Datapath}
    (h : runFrom L q s = .blocked k dp u) :
    ∃ pre x post, L = pre ++ x :: post ∧ k = q + pre.length ∧ x.act.isCall = true ∧ dp = x.dp ∧
      u.answerAt 0 = none ∧ runFrom pre q s = .done u := by
  induction L generalizing q s with
  | nil => simp [runFrom] at h
  | cons a rest ih =>
    unfold runFrom at h
    cases hi : s.issue a.act with
    | ok t =>
      rw [hi] at h
      obtain ⟨pre, x, post, hL, hk, hc, hd, ha, hr⟩ := ih h
      exact ⟨a :: pre, x, post, by rw [hL]; rfl, by rw [hk]; simp; omega, hc, hd, ha, by simpa [runFrom, hi] using hr⟩
    | err e t => rw [hi] at h; cases h
    | blocked =>
      rw [hi] at h
      cases h
      have hc := State.issue_blocked_inv hi
      exact ⟨[], a, rest, rfl, rfl, hc.1, rfl, hc.2, rfl⟩

/-! ### Requests -/

/-- Where R36 lets a write be issued. -/
theorem State.mayWrite_iff (s : State) :
    s.mayWrite = true ↔ s.conn ≠ none ∧ (s.lifecycle = .bootstrapping ∨ s.lifecycle = .ready) := by
  simp [State.mayWrite, Option.isSome_iff_ne_none]

/-- In a legal state with nothing in flight that is `Ready` (R22, R27). -/
theorem State.Inv.mayWrite_iff_ready {s : State} (h : s.Inv) (hf : s.inFlight = none) :
    s.mayWrite = true ↔ s.lifecycle = .ready := by
  have hb : s.lifecycle ≠ .bootstrapping := fun hb => by
    obtain ⟨f, hs, _⟩ := h.2.2.1 hb
    rw [hf] at hs; cases hs
  rw [State.mayWrite_iff]
  exact ⟨fun k => k.2.resolve_left hb, fun k => ⟨h.2.1 k, .inr k⟩⟩

/-- What a request may do depends on the lifecycle and the connection alone. -/
theorem permitted_congr {s t : State} (hl : t.lifecycle = s.lifecycle) (hc : t.conn = s.conn) (i : Instr) :
    permitted i t = permitted i s := by
  cases i <;> simp [permitted, State.mayWrite, hl, hc]

/-- R68's row of the display requests, both ways. -/
theorem permitted_ready {i : Instr} {s : State} (hi : isDisplayRequest i = true) (h : permitted i s = true) :
    s.lifecycle = .ready := by
  cases i <;> simp_all [permitted, isDisplayRequest]

theorem permitted_of_ready {i : Instr} {s : State} (hi : isDisplayRequest i = true) (h : s.lifecycle = .ready) :
    permitted i s = true := by
  cases i <;> simp_all [permitted, isDisplayRequest]

/-- Acceptance (R50, R68), once. -/
theorem accepting_next {i : Instr} {body : State → State} {s t : State} (h : accepting i body s = .next t) :
    s.inFlight = none ∧ ((permitted i s = true ∧ t = body s) ∨
      (permitted i s = false ∧ t = s.raise (.stateError s.lifecycle))) := by
  unfold accepting at h
  cases hf : s.inFlight with
  | some f => simp [hf] at h
  | none =>
    cases hp : permitted i s <;> simp [hf, hp] at h <;> simp [h]

theorem accepting_of_permitted {i : Instr} {body : State → State} {s : State} (hf : s.inFlight = none)
    (hp : permitted i s = true) : accepting i body s = .next (body s) := by
  simp [accepting, hf, hp]

theorem accepting_of_not_permitted {i : Instr} {body : State → State} {s : State} (hf : s.inFlight = none)
    (hp : permitted i s = false) : accepting i body s = .next (s.raise (.stateError s.lifecycle)) := by
  simp [accepting, hf, hp]

theorem accepting_in_flight {i : Instr} {body : State → State} {s : State} (hf : s.inFlight ≠ none) :
    accepting i body s = .refused .concurrentRequest := by
  cases h : s.inFlight with
  | none => exact absurd h hf
  | some f => simp [accepting, h]

/-- Code points in range are never refused. -/
theorem refusingCodePoints_of_all {cs : List Nat} {k : Host.Outcome State Fault Refusal}
    (h : cs.all isCodePoint = true) : refusingCodePoints cs k = k := by
  have hn : cs.find? (fun c => !isCodePoint c) = none := by
    rw [List.find?_eq_none]
    intro c hc
    simpa using List.all_eq_true.mp h c hc
  simp [refusingCodePoints, hn]

end Sys2Proof.Machine
end

