-- ==== Sys2Proof/Laws/Exec.lean ====
section
/-! SUPPORT. What `exec` and `step` can do, once: the inversion lemmas that proofs about every instruction cite instead
of unfolding a meaning. -/

namespace Sys2Proof.Machine

/-- No framer sequence issues `Connect` (R35). -/
theorem byteSeq_no_connect (p : Params) (rs : Bool) (b : Byte) : ∀ a ∈ byteSeq p rs b, a.act ≠ .connect := by
  simp [byteSeq, pulse]

theorem rawNibbleSeq_no_connect (p : Params) (v : Byte) : ∀ a ∈ rawNibbleSeq p v, a.act ≠ .connect := by
  simp [rawNibbleSeq, pulse]

theorem rawInit8Seq_no_connect (p : Params) : ∀ a ∈ rawInit8Seq p, a.act ≠ .connect := by
  simp [rawInit8Seq, rawNibbleSeq, pulse, waitSlot]

theorem clearSeq_no_connect (p : Params) : ∀ a ∈ clearSeq p, a.act ≠ .connect := by
  simp [clearSeq, commandSeq, byteSeq, pulse, waitSlot]

theorem homeSeq_no_connect (p : Params) : ∀ a ∈ homeSeq p, a.act ≠ .connect := by
  simp [homeSeq, commandSeq, byteSeq, pulse, waitSlot]

theorem shutdownSeq_no_connect (p : Params) : ∀ a ∈ shutdownSeq p, a.act ≠ .connect := by
  intro a ha
  obtain ⟨x, _, rfl⟩ := List.mem_map.mp ha
  cases x <;> simp [shutdownSlot, waitSlot]

theorem stringSeq_no_connect (p : Params) (cs : List Nat) : ∀ a ∈ stringSeq p cs, a.act ≠ .connect := by
  intro a ha
  obtain ⟨c, _, hc⟩ := List.mem_flatMap.mp ha
  exact byteSeq_no_connect p true (charByte c) a hc

/-- A response that no failing call of the transport caused. -/
def ownResponse (i : Instr) : Response → Prop
  | .ok => True
  | .okName _ => True
  | .err (.stateError _) => True
  | .err (.validationError row col) => i = .setCursor row col ∧ decodeCell row col = none
  | .err (.transportError _) => False

/-- What `exec` can do when it answers a next state: return a response at once, run the bring-up, or run a list of
writes and delays, where R36 or the guard of a display request or R74 lets it. -/
def ExecCases (i : Instr) (s t : State) : Prop :=
  (∃ r, t = s.respond r ∧ ownResponse i r) ∨
  (i = .initializeReq ∧ s.lifecycle = .notStarted ∧
    t = perform .initializeReq (bringUpSeq s.cfg) { s with lifecycle := .bootstrapping }) ∨
  (i ≠ .initializeReq ∧ permitted i s = true ∧ (s.lifecycle = .ready ∨ s.mayWrite = true) ∧
    ∃ L, (∀ a ∈ L, a.act ≠ .connect) ∧ t = perform i L s)

theorem accepting_cases {i : Instr} {body : State → State} {s t : State} (h : accepting i body s = .next t)
    (hb : permitted i s = true → ExecCases i s (body s)) : s.inFlight = none ∧ ExecCases i s t := by
  obtain ⟨hf, ⟨hp, rfl⟩ | ⟨_, rfl⟩⟩ := accepting_next h
  · exact ⟨hf, hb hp⟩
  · exact ⟨hf, .inl ⟨_, rfl, trivial⟩⟩

theorem refusingCodePoints_next {cs : List Nat} {k : Host.Outcome State Fault Refusal} {t : State}
    (h : refusingCodePoints cs k = .next t) : k = .next t ∧ cs.all isCodePoint = true := by
  unfold refusingCodePoints at h
  cases hf : cs.find? (fun c => !isCodePoint c) with
  | some c => simp [hf] at h
  | none =>
    rw [hf] at h
    refine ⟨h, List.all_eq_true.mpr fun c hc => ?_⟩
    simpa using List.find?_eq_none.mp hf c hc

/-- The inversion lemma of `exec`. -/
theorem exec_cases {i : Instr} {s t : State} (h : exec i s = .next t) : s.inFlight = none ∧ ExecCases i s t := by
  cases i <;> simp only [exec] at h
  case initializeReq =>
    exact accepting_cases h fun hp => .inr (.inl ⟨rfl, by simpa [permitted] using hp, rfl⟩)
  case shutdown =>
    refine accepting_cases h fun hp => ?_
    split
    · next hr => exact .inr (.inr ⟨by simp, hp, .inl hr.1, _, shutdownSeq_no_connect _, rfl⟩)
    · exact .inl ⟨.ok, rfl, trivial⟩
  case identity => exact accepting_cases h fun _ => .inl ⟨_, rfl, trivial⟩
  case clear =>
    exact accepting_cases h fun hp =>
      .inr (.inr ⟨by simp, hp, .inl (permitted_ready rfl hp), _, clearSeq_no_connect _, rfl⟩)
  case home =>
    exact accepting_cases h fun hp =>
      .inr (.inr ⟨by simp, hp, .inl (permitted_ready rfl hp), _, homeSeq_no_connect _, rfl⟩)
  case setCursor row col =>
    refine accepting_cases h fun hp => ?_
    cases hd : decodeCell row col with
    | none => exact .inl ⟨.err (.validationError row col), by simp [State.raise], rfl, hd⟩
    | some b => exact .inr (.inr ⟨by simp, hp, .inl (permitted_ready rfl hp), _, byteSeq_no_connect _ false b, rfl⟩)
  case writeChar c =>
    exact accepting_cases (refusingCodePoints_next h).1
      fun hp => .inr (.inr ⟨by simp, hp, .inl (permitted_ready rfl hp), _,
        byteSeq_no_connect _ true (charByte c), rfl⟩)
  case writeString cs =>
    exact accepting_cases (refusingCodePoints_next h).1
      fun hp => .inr (.inr ⟨by simp, hp, .inl (permitted_ready rfl hp), _, stringSeq_no_connect _ cs, rfl⟩)
  case rawInit8bit =>
    exact accepting_cases h fun hp => .inr (.inr ⟨by simp, hp, .inr hp, _, rawInit8Seq_no_connect _, rfl⟩)
  case rawInit4bit =>
    exact accepting_cases h fun hp => .inr (.inr ⟨by simp, hp, .inr hp, _, rawNibbleSeq_no_connect _ _, rfl⟩)
  case cmdClear =>
    exact accepting_cases h fun hp => .inr (.inr ⟨by simp, hp, .inr hp, _, clearSeq_no_connect _, rfl⟩)
  case cmdHome =>
    exact accepting_cases h fun hp => .inr (.inr ⟨by simp, hp, .inr hp, _, homeSeq_no_connect _, rfl⟩)
  case cmdFunctionSet2line =>
    exact accepting_cases h fun hp => .inr (.inr ⟨by simp, hp, .inr hp, _, byteSeq_no_connect _ false _, rfl⟩)
  case cmdDisplayOn =>
    exact accepting_cases h fun hp => .inr (.inr ⟨by simp, hp, .inr hp, _, byteSeq_no_connect _ false _, rfl⟩)
  case cmdSetDdramAddress a =>
    exact accepting_cases h fun hp => .inr (.inr ⟨by simp, hp, .inr hp, _, byteSeq_no_connect _ false _, rfl⟩)
  case dataChar d =>
    exact accepting_cases h fun hp => .inr (.inr ⟨by simp, hp, .inr hp, _, byteSeq_no_connect _ true d, rfl⟩)
  case sendRawNibble v =>
    exact accepting_cases h fun hp => .inr (.inr ⟨by simp, hp, .inr hp, _, rawNibbleSeq_no_connect _ v, rfl⟩)
  case sendCommand b =>
    exact accepting_cases h fun hp => .inr (.inr ⟨by simp, hp, .inr hp, _, byteSeq_no_connect _ false b, rfl⟩)
  case sendData b =>
    exact accepting_cases h fun hp => .inr (.inr ⟨by simp, hp, .inr hp, _, byteSeq_no_connect _ true b, rfl⟩)

/-- The inversion lemma of `step`: it waits, it goes on with what is in flight, or it executes the instruction its port
decodes to. -/
theorem step_cases {s t : State} (h : step s = .next t) :
    (∃ f, s.inFlight = some f ∧ t = resume f s) ∨
    (s.inFlight = none ∧ t = s) ∨
    (s.inFlight = none ∧ ∃ q rest i, s.port = q :: rest ∧ decode s.cfg.enMask q.item = .instr i ∧
      exec i { s with port := rest } = .next t) := by
  unfold step at h
  cases hf : s.inFlight with
  | some f =>
    rw [hf] at h
    dsimp only at h
    split at h
    · cases h
    · cases h; exact .inl ⟨f, rfl, rfl⟩
  | none =>
    rw [hf] at h
    cases hp : s.port with
    | nil =>
      simp only [State.fetch, hp] at h
      cases h; exact .inr (.inl ⟨rfl, rfl⟩)
    | cons q rest =>
      cases ho : overlaps rest with
      | true => simp [State.fetch, hp, ho] at h
      | false =>
        cases hd : decode s.cfg.enMask q.item with
        | reject r => simp [State.fetch, hp, ho, hd] at h
        | instr i =>
          simp only [State.fetch, hp, ho, hd, Bool.false_eq_true, if_false] at h
          exact .inr (.inr ⟨rfl, q, rest, i, rfl, hd, h⟩)

/-- How a request's list ends, in terms of the state its run ended in. -/
theorem conclude_cases (req : Instr) (L : List Slot) (r : RunEnd) :
    (∃ u, r = .done u ∧ conclude req L r = (u.settleLifecycle req .ready).respond .ok) ∨
    (∃ e u, r = .failed e u ∧
      conclude req L r = (u.settleLifecycle req .failed).respond (.err (.transportError e))) ∨
    (∃ k dp u, r = .blocked k dp u ∧ conclude req L r = { u with inFlight := some ⟨req, L, k, dp⟩ }) := by
  cases r with
  | done u => exact .inl ⟨u, rfl, rfl⟩
  | failed e u => exact .inr (.inl ⟨e, u, rfl, rfl⟩)
  | blocked k dp u => exact .inr (.inr ⟨k, dp, u, rfl, rfl⟩)

end Sys2Proof.Machine
end

