-- ==== Sys2Proof/Laws/PerInstr.lean ====
section
/-! SUPPORT. Statements about the instruction as syntax, one lemma per constructor. `RowFormat`: an instruction is
encoded in the format that spec/opcode_table.json gives its row. -/

namespace Sys2Proof.Laws.RowFormat

/-- The name the table has for an item's format (R53). -/
def itemFormat : Item → String
  | .request _ _ => "host_request"
  | .unit _ => "controller_unit9"
  | .raw _ => "controller_raw4"
  | .frames _ => "bus_frame_pair"

/-- The format of an instruction's row. -/
def rowFormat : Instr → String
  | .initializeReq => "host_request"
  | .shutdown => "host_request"
  | .identity => "host_request"
  | .clear => "host_request"
  | .home => "host_request"
  | .setCursor _ _ => "host_request"
  | .writeChar _ => "host_request"
  | .writeString _ => "host_request"
  | .rawInit8bit => "controller_raw4"
  | .rawInit4bit => "controller_raw4"
  | .cmdClear => "controller_unit9"
  | .cmdHome => "controller_unit9"
  | .cmdFunctionSet2line => "controller_unit9"
  | .cmdDisplayOn => "controller_unit9"
  | .cmdSetDdramAddress _ => "controller_unit9"
  | .dataChar _ => "controller_unit9"
  | .sendRawNibble _ => "bus_frame_pair"
  | .sendCommand _ => "bus_frame_pair"
  | .sendData _ => "bus_frame_pair"

/-- The encoder uses the row's format, whichever bit EN is. -/
def Statement (i : Instr) : Prop := ∀ en, itemFormat (encode en i) = rowFormat i

theorem initializeReq : Statement .initializeReq := fun _ => rfl
theorem shutdown : Statement .shutdown := fun _ => rfl
theorem identity : Statement .identity := fun _ => rfl
theorem clear : Statement .clear := fun _ => rfl
theorem home : Statement .home := fun _ => rfl
theorem setCursor (row col : Int) : Statement (.setCursor row col) := fun _ => rfl
theorem writeChar (c : Nat) : Statement (.writeChar c) := fun _ => rfl
theorem writeString (cs : List Nat) : Statement (.writeString cs) := fun _ => rfl
theorem rawInit8bit : Statement .rawInit8bit := fun _ => rfl
theorem rawInit4bit : Statement .rawInit4bit := fun _ => rfl
theorem cmdClear : Statement .cmdClear := fun _ => rfl
theorem cmdHome : Statement .cmdHome := fun _ => rfl
theorem cmdFunctionSet2line : Statement .cmdFunctionSet2line := fun _ => rfl
theorem cmdDisplayOn : Statement .cmdDisplayOn := fun _ => rfl
theorem cmdSetDdramAddress (a : BitVec 7) : Statement (.cmdSetDdramAddress a) := fun _ => rfl
theorem dataChar (d : Byte) : Statement (.dataChar d) := fun _ => rfl
theorem sendRawNibble (v : Byte) : Statement (.sendRawNibble v) := fun _ => rfl
theorem sendCommand (b : Byte) : Statement (.sendCommand b) := fun _ => rfl
theorem sendData (b : Byte) : Statement (.sendData b) := fun _ => rfl

end Sys2Proof.Laws.RowFormat
end

