-- ==== Sys2Proof/Tests/Slice0.lean ====
section
/-! SUPPORT. The model's own tests. Expected values come from spec/: the vectors of spec/95_test_vectors.md (cited by
section), the opcode table, and rules R57 to R63. Then the witnesses: for every statement with hypotheses, a state and
operands that meet them all. -/

namespace Sys2Proof.Tests

open Sys2Proof Sys2Proof.Machine

/-! ### Small states and readers -/

/-- A controller as bring-up leaves it (spec/95 section 2.4). -/
def lcdUp : Lcd := ⟨.fourBit, .high, .two, .on, some 0x00, .blank, some 0x20, none, 0, false⟩

/-- A block in `Ready` on a transport that answers `ok`. -/
def ready : State := { State.reset with lifecycle := .ready, conn := some 0, lcd := lcdUp }

/-- A block after a failed bring-up. -/
def failed : State := { State.reset with lifecycle := .failed, conn := some 0, lcd := Lcd.reset.loseSync }

/-- The same block on a transport that answers `ok` `n` times and then `err(7)`. -/
def failing (s : State) (n : Nat) : State := { s with answers := List.replicate n (.ok 0) ++ [.err 7] }

/-- The same block on a transport that answers `ok` `n` times and then never returns. -/
def hanging (s : State) (n : Nat) : State := { s with answers := List.replicate n (.ok 0), standing := none }

/-- The same block with one item at its request port. -/
def offered (s : State) (item : Item) : State := { s with port := [⟨item, false⟩] }

/-- The state a step answers. -/
def nextOf (o : Host.Outcome State Fault Refusal) : Option State :=
  match o with
  | .next t => some t
  | .fault _ => none
  | .refused _ => none

/-- The refusal a step answers. -/
def refusedOf (o : Host.Outcome State Fault Refusal) : Option Refusal :=
  match o with
  | .next _ => none
  | .fault _ => none
  | .refused r => some r

/-- The bytes an instruction writes, from an empty trace. -/
def bytesOf (o : Host.Outcome State Fault Refusal) : Option (List Byte) := (nextOf o).map (fun t => writtenBytes t.trace)

/-- The delays an instruction issues. -/
def delaysOf (o : Host.Outcome State Fault Refusal) : Option (List Nat) :=
  (nextOf o).map (fun t => t.trace.filterMap (fun e => match e with
    | .delay d => some d
    | .connect _ _ _ => none
    | .write _ _ _ _ => none
    | .response _ => none))

/-- The responses an instruction returns. -/
def responseOf (o : Host.Outcome State Fault Refusal) : Option (List Response) :=
  (nextOf o).map (fun t => responses t.trace)

/-! ### WellFormed refuses an ill-formed term for each of its checks -/

theorem test_wellFormed_refuses_code_point : (Instr.writeChar 0x110000).wellFormed = false := by decide
theorem test_wellFormed_refuses_string : (Instr.writeString [0x41, 0x110000]).wellFormed = false := by decide
theorem test_wellFormed_refuses_enable_bit : (Instr.sendRawNibble 0x34).wellFormed = false := by decide
theorem test_wellFormed_takes_last_code_point : (Instr.writeChar 0x10FFFF).wellFormed = true := by decide
theorem test_wellFormed_takes_data_frame : (Instr.sendRawNibble 0xF1).wellFormed = true := by decide

/-! ### Decoding words written out from the spec's encodings, one for each constructor -/

theorem test_decode_initialize : decode .bit2 (.request 0x01 []) = .instr .initializeReq := by decide
theorem test_decode_shutdown : decode .bit2 (.request 0x02 []) = .instr .shutdown := by decide
theorem test_decode_identity : decode .bit2 (.request 0x03 []) = .instr .identity := by decide
theorem test_decode_clear : decode .bit2 (.request 0x10 []) = .instr .clear := by decide
theorem test_decode_home : decode .bit2 (.request 0x11 []) = .instr .home := by decide
theorem test_decode_setCursor :
    decode .bit2 (.request 0x12 [.int 2, .int (-1)]) = .instr (.setCursor 2 (-1)) := by decide
theorem test_decode_writeChar : decode .bit2 (.request 0x13 [.nat 0x141]) = .instr (.writeChar 0x141) := by decide
theorem test_decode_writeString :
    decode .bit2 (.request 0x14 [.str [0x41, 0x42]]) = .instr (.writeString [0x41, 0x42]) := by decide
theorem test_decode_rawInit8bit : decode .bit2 (.raw 0b0011) = .instr .rawInit8bit := by decide
theorem test_decode_rawInit4bit : decode .bit2 (.raw 0b0010) = .instr .rawInit4bit := by decide
theorem test_decode_cmdClear : decode .bit2 (.unit 0b000000001) = .instr .cmdClear := by decide
theorem test_decode_cmdHome : decode .bit2 (.unit 0b000000010) = .instr .cmdHome := by decide
theorem test_decode_cmdFunctionSet2line : decode .bit2 (.unit 0b000101000) = .instr .cmdFunctionSet2line := by decide
theorem test_decode_cmdDisplayOn : decode .bit2 (.unit 0b000001100) = .instr .cmdDisplayOn := by decide
theorem test_decode_cmdSetDdramAddress :
    decode .bit2 (.unit 0b011001111) = .instr (.cmdSetDdramAddress 0x4F) := by decide
theorem test_decode_dataChar : decode .bit2 (.unit 0b100101000) = .instr (.dataChar 0x28) := by decide
theorem test_decode_sendRawNibble : decode .bit2 (.frames [0xF5, 0xF1]) = .instr (.sendRawNibble 0xF1) := by decide
theorem test_decode_sendCommand :
    decode .bit2 (.frames [0xA4, 0xA0, 0x54, 0x50]) = .instr (.sendCommand 0xA5) := by decide
theorem test_decode_sendData :
    decode .bit2 (.frames [0x45, 0x41, 0x85, 0x81]) = .instr (.sendData 0x48) := by decide

/-- The words around them are refused by name (R56 to R59, R64, R79). -/
theorem test_decode_refuses_neighbours :
    decode .bit2 (.request 0x04 []) = .reject (.unknownRequest 0x04) ∧
    decode .bit2 (.request 0x12 [.int 0]) = .reject (.badArguments 0x12) ∧
    decode .bit2 (.unit 0b000000011) = .reject (.unlistedUnit 0x003) ∧
    decode .bit2 (.raw 0b0001) = .reject (.unlistedRaw 0x1) ∧
    decode .bit2 (.frames [0x24, 0x20, 0x85, 0x81]) = .reject (.badFrames [0x24, 0x20, 0x85, 0x81]) := by decide

/-- Table words, numbered as spec/opcode_table.json numbers them. -/
theorem test_decodeTableWord :
    decodeTableWord 8 0x12 = some (.setCursor 0 0) ∧ decodeTableWord 8 0x04 = some (.sendCommand 0x00) ∧
    decodeTableWord 8 0x45 = some (.sendData 0x40) ∧ decodeTableWord 4 0x3 = some .rawInit8bit ∧
    decodeTableWord 16 0x028 = some .cmdFunctionSet2line ∧ decodeTableWord 16 0x141 = some (.dataChar 0x41) := by
  decide

/-- The very next step runs the word placed (R48). -/
theorem test_withFetchWord : bytesOf (step (ready.withFetchWord 16 0x028)) = some [0x24, 0x20, 0x84, 0x80] := by
  decide

/-! ### One instruction each, against the vectors of spec/95 -/

/-- Section 2.4: the 24 writes of R70. -/
theorem test_initialize_writes :
    bytesOf (exec .initializeReq State.reset) = some [0x34, 0x30, 0x34, 0x30, 0x34, 0x30, 0x24, 0x20,
      0x24, 0x20, 0x84, 0x80, 0x04, 0x00, 0xC4, 0xC0, 0x04, 0x00, 0x14, 0x10, 0x04, 0x00, 0x24, 0x20] := by decide
/-- Section 2.4, event 25: the low nibble of 0x28 fails; P3's ghost state. -/
theorem test_initialize_failing :
    (nextOf (exec .initializeReq (failing State.reset 11))).map
      (fun t => (t.lifecycle, t.conn, t.trace.length, t.lcd.ifmode, t.lcd.lines)) =
      some (.failed, some 0, 27, .fourBit, .unknown) := by decide
/-- Section 2.4, default `SHUTDOWN_ACTIONS`. -/
theorem test_shutdown_default : (nextOf (exec .shutdown ready)).map State.trace = some [.response .ok] := by decide
/-- R74 with actions. -/
theorem test_shutdown_actions :
    (nextOf (exec .shutdown { ready with cfg := { Config.defaults with shutdownActions := [.write 0x08, .delay 9] } })).map
      State.trace = some [.write 0 0 0x08 .ok, .delay 9, .response .ok] := by decide
/-- R75's example. -/
theorem test_identity :
    responseOf (exec .identity { failed with name := "lcd" }) = some [.okName "lcd"] := by decide
/-- Section 2.3. -/
theorem test_clear : bytesOf (exec .clear ready) = some [0x04, 0x00, 0x14, 0x10] ∧
    delaysOf (exec .clear ready) = some [1, 50, 1, 50, 2000] := by decide
/-- Section 2.3: `W 10` fails; neither the settle delay nor the wait is issued. -/
theorem test_clear_failing : delaysOf (exec .clear (failing ready 3)) = some [1, 50, 1] ∧
    responseOf (exec .clear (failing ready 3)) = some [.err (.transportError 7)] := by decide
/-- Section 2.3. -/
theorem test_home : bytesOf (exec .home ready) = some [0x04, 0x00, 0x24, 0x20] ∧
    delaysOf (exec .home ready) = some [1, 50, 1, 50, 2000] := by decide
/-- Section 2.2, and the ghost cursor after it. -/
theorem test_setCursor : bytesOf (exec (.setCursor 1 15) ready) = some [0xC4, 0xC0, 0xF4, 0xF0] ∧
    (nextOf (exec (.setCursor 1 15) ready)).map (fun t => t.lcd.cursor) = some (some 0x4F) := by decide
/-- Section 2.2, and section 2.5: the guard before validation. -/
theorem test_setCursor_errors :
    responseOf (exec (.setCursor 1 64) ready) = some [.err (.validationError 1 64)] ∧
    responseOf (exec (.setCursor 5 0) State.reset) = some [.err (.stateError .notStarted)] := by decide
/-- Section 2.3. -/
theorem test_writeChar : bytesOf (exec (.writeChar 0x141) ready) = some [0x45, 0x41, 0x15, 0x11] ∧
    bytesOf (exec (.writeChar 0x10FFFF) ready) = some [0xF5, 0xF1, 0xF5, 0xF1] := by decide
/-- Section 2.3 and section 2.5. -/
theorem test_writeChar_refused :
    refusedOf (exec (.writeChar 0x110000) State.reset) = some (.badCodePoint 0x110000) := by decide
/-- Section 2.3. -/
theorem test_writeString : bytesOf (exec (.writeString [0x41, 0x42]) ready) =
    some [0x45, 0x41, 0x15, 0x11, 0x45, 0x41, 0x25, 0x21] := by decide
/-- Section 2.3: `W 15` fails, and `'B'` is not attempted. -/
theorem test_writeString_failing :
    bytesOf (exec (.writeString [0x41, 0x42]) (failing ready 2)) = some [0x45, 0x41, 0x15] ∧
    (nextOf (exec (.writeString [0x41, 0x42]) (failing ready 2))).map (fun t => (t.lifecycle, t.lcd.phase)) =
      some (.ready, .unknown) := by decide
/-- R59, R113. -/
theorem test_rawInit8bit : bytesOf (exec .rawInit8bit ready) = some [0x34, 0x30] ∧
    delaysOf (exec .rawInit8bit ready) = some [1, 50, 4500] := by decide
/-- R59, R73. -/
theorem test_rawInit4bit : bytesOf (exec .rawInit4bit ready) = some [0x24, 0x20] ∧
    delaysOf (exec .rawInit4bit ready) = some [1, 50] := by decide
/-- Section 2.1. -/
theorem test_cmdClear : bytesOf (exec .cmdClear ready) = some [0x04, 0x00, 0x14, 0x10] := by decide
/-- Section 2.1. -/
theorem test_cmdHome : bytesOf (exec .cmdHome ready) = some [0x04, 0x00, 0x24, 0x20] := by decide
/-- Section 2.1 and R89. -/
theorem test_cmdFunctionSet2line : bytesOf (exec .cmdFunctionSet2line ready) = some [0x24, 0x20, 0x84, 0x80] ∧
    (nextOf (exec .cmdFunctionSet2line { ready with lcd := { lcdUp with lines := .unknown } })).map (fun t => t.lcd.lines)
      = some .two := by decide
/-- Section 2.1 and R89. -/
theorem test_cmdDisplayOn : bytesOf (exec .cmdDisplayOn ready) = some [0x04, 0x00, 0xC4, 0xC0] ∧
    (nextOf (exec .cmdDisplayOn { ready with lcd := { lcdUp with display := .unknown } })).map (fun t => t.lcd.display)
      = some .on := by decide
/-- Section 2.1. -/
theorem test_cmdSetDdramAddress :
    bytesOf (exec (.cmdSetDdramAddress 0x0F) ready) = some [0x84, 0x80, 0xF4, 0xF0] := by decide
/-- Section 2.1; R89: the cursor after data is unknown. -/
theorem test_dataChar : bytesOf (exec (.dataChar 0x20) ready) = some [0x25, 0x21, 0x05, 0x01] ∧
    (nextOf (exec (.dataChar 0x20) ready)).map (fun t => t.lcd.cursor) = some none := by decide
/-- Section 2.1, for two choices of EN. -/
theorem test_sendRawNibble : bytesOf (exec (.sendRawNibble 0xF1) ready) = some [0xF5, 0xF1] ∧
    bytesOf (exec (.sendRawNibble 0x30) { ready with cfg := { Config.defaults with enMask := .bit3 } }) =
      some [0x38, 0x30] := by decide
/-- Section 2.1: `sendRawNibble(0x30)` failing at its 2nd write; the settle delay is not issued. -/
theorem test_sendRawNibble_failing :
    (nextOf (exec (.sendRawNibble 0x30) (failing ready 1))).map State.trace =
      some [.write 0 0 0x34 .ok, .delay 1, .write 0 0 0x30 (.err 7), .response (.err (.transportError 7))] := by decide
/-- Section 2.1, for two choices of EN. -/
theorem test_sendCommand : bytesOf (exec (.sendCommand 0xFF) ready) = some [0xF4, 0xF0, 0xF4, 0xF0] ∧
    bytesOf (exec (.sendCommand 0x28) { ready with cfg := { Config.defaults with enMask := .bit1 } }) =
      some [0x22, 0x20, 0x82, 0x80] := by decide
/-- Section 2.1, for two choices of EN. -/
theorem test_sendData : bytesOf (exec (.sendData 0x7E) ready) = some [0x75, 0x71, 0xE5, 0xE1] ∧
    bytesOf (exec (.sendData 0x41) { ready with cfg := { Config.defaults with enMask := .bit3 } }) =
      some [0x49, 0x41, 0x19, 0x11] := by decide

/-- R36, R109: before bring-up a unit writes nothing (the error is log entry 11). -/
theorem test_unit_before_bring_up :
    (nextOf (exec .rawInit8bit State.reset)).map State.trace = some [.response (.err (.stateError .notStarted))] := by
  decide
/-- R32, R77: after a complete sendCommand of a byte outside R57 the controller expects a high nibble again. -/
theorem test_sendCommand_phase : (nextOf (exec (.sendCommand 0x00) ready)).map
    (fun t => (t.lcd.ifmode, t.lcd.phase, t.lcd.cursor)) = some (.fourBit, .high, none) := by decide

/-! ### The step, construction and reset -/

/-- Section 2.5: tag 0x15 in any state. -/
theorem test_step_unknown_tag : refusedOf (step (offered failed (.request 0x15 []))) = some (.unknownRequest 0x15) := by
  decide
/-- P1: `construct(t, {addr: 0x27})`; every call goes to 0x27. -/
theorem test_construct_addr :
    (nextOf (step (offered (State.construct Config.defaults ⟨some 0x27, none⟩ [] (some (.ok 0))) (.request 0x01 [])))).map
      (fun t => (t.lifecycle, t.addr, t.trace.all (fun e => e.onTarget 0x27 0), t.trace.length)) =
      some (.ready, 0x27, true, 56) := by decide
/-- Section 2.4's ghost end state. -/
theorem test_bring_up_ghost : (nextOf (exec .initializeReq State.reset)).map State.lcd = some lcdUp := by decide
/-- P4 after #1: a later clear, sent out of phase, teaches nothing. -/
theorem test_lost_display : (nextOf (exec .clear { ready with lcd := lcdUp.loseSync })).map
    (fun t => (t.lcd.cursor, t.lcd.content)) = some (none, .unknown) := by decide
/-- R95: a transport that does not return leaves the request in flight. -/
theorem test_hang : (nextOf (exec .clear (hanging ready 2))).map
    (fun t => (t.inFlight.map InFlight.seq, writtenBytes t.trace, responses t.trace)) =
      some (some 4, [0x04, 0x00], []) := by decide
/-- R90's codes and R20's. -/
theorem test_codes : errCode (.transportError 7) = 1 ∧ errCode (.validationError 2 0) = 2 ∧
    errCode (.stateError .ready) = 3 ∧ lifecycleCode .failed = 3 := by decide

/-! ### Witnesses: states and operands that meet a statement's hypotheses

`witness_<Statement>` for each statement with hypotheses, with one part for each of its clauses, at the ends of the
ranges they name. -/

/-- Reset's transport answers `ok` to any number of calls. -/
theorem okCalls_of_standing {s : State} {h : Handle} (ha : s.answers = []) (hs : s.standing = some (.ok h)) (n : Nat) :
    s.okCalls n := by
  intro k _; exact ⟨h, by simp [State.answerAt, ha, hs]⟩

theorem failing_failsAt (s : State) (n : Nat) : (failing s n).failsAt n 7 := by
  refine ⟨fun k hk => ⟨0, ?_⟩, ?_⟩
  · simp [State.answerAt, failing, List.getElem?_append, hk]
  · simp [State.answerAt, failing]

theorem hanging_hangsAt (s : State) (n : Nat) : (hanging s n).hangsAt n := by
  refine ⟨fun k hk => ⟨0, ?_⟩, ?_⟩
  · simp [State.answerAt, hanging, hk]
  · simp [State.answerAt, hanging]

theorem ready_okCalls (n : Nat) : ready.okCalls n := okCalls_of_standing rfl rfl n
theorem reset_okCalls (n : Nat) : State.reset.okCalls n := okCalls_of_standing rfl rfl n

/-- A request that has not returned, as `exec` leaves it. -/
def inFlightClear : InFlight := ⟨.clear, clearSeq Config.defaults, 4, ⟨0x01, 0x10, false⟩⟩

/-- A block with that request in flight and a transport that never returns. -/
def blocked : State := { ready with inFlight := some inFlightClear, standing := none }

/-- The same block on a transport that answers after all. -/
def blockedOk : State := { blocked with standing := some (.ok 0) }

/-- A block with `SHUTDOWN_ACTIONS`. -/
def withActions : State :=
  { ready with cfg := { Config.defaults with shutdownActions := [.write 0x08, .delay 9, .write 0x00] } }

/-- A block that has lost the display. -/
def lostDisplay : State := { ready with lcd := lcdUp.loseSync }

theorem reset_inv : State.reset.Inv := by simp [State.Inv, State.reset]

theorem ready_inv : ready.Inv := by simp [State.Inv, ready, State.reset]

theorem failed_inv : failed.Inv := by simp [State.Inv, failed, State.reset]

theorem ready_inStep : ready.inStep := ⟨rfl, rfl, rfl, 0x20, rfl, rfl⟩

theorem witness_EncodeThenDecodeGivesInstructionBack :
    (Instr.writeChar 0x10FFFF).wellFormed = true ∧ (Instr.sendRawNibble 0xF1).wellFormed = true ∧
    (Instr.writeString [0, 0x10FFFF]).wellFormed = true ∧ (Instr.sendData 0xFF).wellFormed = true := by decide

theorem witness_DecodedInstructionIsWellFormed :
    decode .bit3 (.frames [0xF9, 0xF1]) = .instr (.sendRawNibble 0xF1) := by decide

theorem witness_FramesWrittenAreTheLayout : ready.inFlight = none ∧ ready.mayWrite = true ∧ ready.okCalls 4 ∧
    encode ready.cfg.enMask (.sendRawNibble 0xF1) = .frames [0xF5, 0xF1] ∧
    encode ready.cfg.enMask (.sendCommand 0x28) = .frames [0x24, 0x20, 0x84, 0x80] ∧
    encode ready.cfg.enMask (.sendData 0x41) = .frames [0x45, 0x41, 0x15, 0x11] :=
  ⟨rfl, rfl, ready_okCalls 4, by decide, by decide, by decide⟩

theorem witness_UnlistedTagIsRefused :
    (offered failed (.request 0x04 [.int 1])).inFlight = none ∧
    (offered failed (.request 0x04 [.int 1])).port = ⟨.request 0x04 [.int 1], false⟩ :: [] ∧ overlaps [] = false ∧
    (0x04 : Byte) ∉ ([0x01, 0x02, 0x03, 0x10, 0x11, 0x12, 0x13, 0x14] : List Byte) ∧
    (0x15 : Byte) ∉ ([0x01, 0x02, 0x03, 0x10, 0x11, 0x12, 0x13, 0x14] : List Byte) :=
  ⟨rfl, rfl, rfl, by decide, by decide⟩

theorem witness_BadCodePointRefusesRequest :
    (offered ready (.request 0x13 [.nat 0x110000])).inFlight = none ∧ overlaps [] = false ∧ 0x10FFFF < 0x110000 ∧
    (offered ready (.request 0x13 [.nat 0x110000])).port = ⟨.request 0x13 [.nat 0x110000], false⟩ :: [] ∧
    (∀ d ∈ [0x10FFFF], d ≤ 0x10FFFF) ∧
    (offered ready (.request 0x14 [.str [0x10FFFF, 0x110000, 0x41]])).port =
      ⟨.request 0x14 [.str ([0x10FFFF] ++ 0x110000 :: [0x41])], false⟩ :: [] :=
  ⟨rfl, rfl, by decide, rfl, by decide, rfl⟩

theorem witness_OverlappingRequestIsRefused :
    ({ blocked with port := [⟨.request 0x03 [], true⟩] } : State).inFlight ≠ none ∧
    ({ ready with port := [⟨.request 0x10 [], false⟩, ⟨.request 0x03 [], true⟩] } : State).inFlight = none ∧
    blocked.inFlight ≠ none ∧ Instr.identity.wellFormed = true :=
  ⟨nofun, rfl, nofun, rfl⟩

theorem witness_StepExecutesTheDecodedInstruction :
    (offered ready (.unit 0x0C3)).inFlight = none ∧
    (offered ready (.unit 0x0C3)).port = ⟨.unit 0x0C3, false⟩ :: [] ∧ overlaps [] = false ∧
    decode (offered ready (.unit 0x0C3)).cfg.enMask (.unit 0x0C3) = .instr (.cmdSetDdramAddress 0x43) :=
  ⟨rfl, rfl, rfl, by decide⟩

theorem witness_StepWaitsForARequest : State.reset.inFlight = none ∧ State.reset.port = [] := ⟨rfl, rfl⟩

theorem witness_UnansweredCallBlocksForever : blocked.inFlight = some inFlightClear ∧
    blocked.inFlightLegal inFlightClear ∧ blocked.answerAt 0 = none ∧ overlaps blocked.port = false := by
  exact ⟨rfl, ⟨⟨_, rfl, rfl, rfl⟩, nofun, fun _ => ⟨rfl, rfl, clearSeq_no_connect _⟩⟩, rfl, rfl⟩

/-- In a byte of a command, and in the second byte of a string. -/
theorem witness_UnansweredDisplayRequestStaysInFlight :
    (hanging ready 3).inFlight = none ∧ (hanging ready 3).lifecycle = .ready ∧
    displayActions (hanging ready 3).cfg (.setCursor 1 15) = some (cursorActions Config.defaults 1 15) ∧
    3 < calls (cursorActions Config.defaults 1 15) ∧ (hanging ready 3).hangsAt 3 ∧
    displayActions (hanging ready 4).cfg (.writeString [0x41, 0x42]) = some (stringActions Config.defaults [0x41, 0x42]) ∧
    4 < calls (stringActions Config.defaults [0x41, 0x42]) ∧ (hanging ready 4).hangsAt 4 :=
  ⟨rfl, rfl, rfl, by decide, hanging_hangsAt ready 3, rfl, by decide, hanging_hangsAt ready 4⟩

/-- `initialize` from `NotStarted`, `shutdown` and a display request in `Ready`; and a request that waits again. -/
theorem witness_LateAnswersChangeNothing :
    (hanging State.reset 0).standing = none ∧ overlaps (hanging State.reset 0).port = false ∧
    (∃ t, exec .initializeReq (hanging State.reset 0) = .next t ∧ t.inFlight ≠ none) ∧
    (∃ t, exec .initializeReq (hanging State.reset 24) = .next t ∧ t.inFlight ≠ none) ∧
    (hanging withActions 1).standing = none ∧ overlaps (hanging withActions 1).port = false ∧
    (∃ t, exec .shutdown (hanging withActions 1) = .next t ∧ t.inFlight ≠ none) ∧
    (∃ t, exec .home (hanging ready 0) = .next t ∧ t.inFlight ≠ none) ∧
    blocked.standing = none ∧ overlaps blocked.port = false ∧ blocked.inFlight ≠ none ∧
    ∃ t, step { blocked with answers := [.ok 0] } = .next t ∧ t.inFlight ≠ none :=
  ⟨rfl, rfl, ⟨_, rfl, nofun⟩, ⟨_, rfl, nofun⟩, rfl, rfl, ⟨_, rfl, nofun⟩, ⟨_, rfl, nofun⟩, rfl, rfl, nofun, _, rfl, nofun⟩

theorem witness_RawNibbleCompletes : ready.inFlight = none ∧ ready.mayWrite = true ∧ ready.okCalls 2 :=
  ⟨rfl, rfl, ready_okCalls 2⟩
theorem witness_CommandBytesComplete : ready.inFlight = none ∧ ready.mayWrite = true ∧ ready.okCalls 4 :=
  ⟨rfl, rfl, ready_okCalls 4⟩
theorem witness_DataBytesComplete : ready.inFlight = none ∧ ready.mayWrite = true ∧ ready.okCalls 4 :=
  ⟨rfl, rfl, ready_okCalls 4⟩
theorem witness_RawUnitsComplete : ready.inFlight = none ∧ ready.mayWrite = true ∧ ready.okCalls 2 :=
  ⟨rfl, rfl, ready_okCalls 2⟩
theorem witness_ClearAndHomeUnitsComplete : ready.inFlight = none ∧ ready.mayWrite = true ∧ ready.okCalls 4 :=
  ⟨rfl, rfl, ready_okCalls 4⟩

/-- A raw unit, a command unit with its wait, and a primitive. -/
theorem witness_FirstFailureEndsThePrimitive : (failing ready 1).inFlight = none ∧ (failing ready 1).mayWrite = true ∧
    internalActions (failing ready 1).cfg .rawInit8bit =
      some (nibbleActions Config.defaults 0x30 ++ [.delay Config.defaults.tInitNibble]) ∧
    callAt 1 (nibbleActions Config.defaults 0x30 ++ [.delay Config.defaults.tInitNibble]) = some (.write 0x30) ∧
    (failing ready 1).failsAt 1 7 ∧
    internalActions (failing ready 3).cfg .cmdClear = some (clearActions Config.defaults) ∧
    callAt 3 (clearActions Config.defaults) = some (.write 0x10) ∧ (failing ready 3).failsAt 3 7 ∧
    internalActions (failing ready 0).cfg (.sendData 0x41) = some (dataActions Config.defaults 0x41) ∧
    callAt 0 (dataActions Config.defaults 0x41) = some (.write 0x45) ∧ (failing ready 0).failsAt 0 7 :=
  ⟨rfl, rfl, rfl, by decide, failing_failsAt ready 1, rfl, by decide, failing_failsAt ready 3, rfl, by decide,
    failing_failsAt ready 0⟩

theorem witness_ClearCompletes : ready.inFlight = none ∧ ready.lifecycle = .ready ∧ ready.okCalls 4 :=
  ⟨rfl, rfl, ready_okCalls 4⟩
theorem witness_HomeCompletes : ready.inFlight = none ∧ ready.lifecycle = .ready ∧ ready.okCalls 4 :=
  ⟨rfl, rfl, ready_okCalls 4⟩
theorem witness_SetCursorCompletes : ready.inFlight = none ∧ ready.lifecycle = .ready ∧ ready.okCalls 4 ∧
    ((1 : Int) = 0 ∨ (1 : Int) = 1) ∧ (0 : Int) ≤ 15 ∧ (15 : Int) ≤ 15 :=
  ⟨rfl, rfl, ready_okCalls 4, by decide, by decide, by decide⟩
theorem witness_InvalidSetCursorIssuesNothing : ready.inFlight = none ∧ ready.lifecycle = .ready ∧
    ¬ (((2 : Int) = 0 ∨ (2 : Int) = 1) ∧ (0 : Int) ≤ 0 ∧ (0 : Int) ≤ 15) ∧
    ¬ (((0 : Int) = 0 ∨ (0 : Int) = 1) ∧ (0 : Int) ≤ 16 ∧ (16 : Int) ≤ 15) ∧
    ¬ (((0 : Int) = 0 ∨ (0 : Int) = 1) ∧ (0 : Int) ≤ -1 ∧ (-1 : Int) ≤ 15) :=
  ⟨rfl, rfl, by decide, by decide, by decide⟩
theorem witness_OnlySetCursorRaisesValidationError : ∃ t, exec (.setCursor 0 16) ready = .next t ∧
    t.trace = ready.trace ++ [] ++ [.response (.err (.validationError 0 16))] := ⟨_, rfl, rfl⟩
theorem witness_DecoderMapsExactlyTheCells : (0 : Int) ≤ 0 ∧ (0 : Int) ≤ 15 ∧ (15 : Int) ≤ 15 ∧
    ¬ (((-1 : Int) = 0 ∨ (-1 : Int) = 1) ∧ (0 : Int) ≤ 0 ∧ (0 : Int) ≤ 15) ∧
    ¬ (((1 : Int) = 0 ∨ (1 : Int) = 1) ∧ (0 : Int) ≤ 16 ∧ (16 : Int) ≤ 15) := by decide
theorem witness_WriteCharCompletes : ready.inFlight = none ∧ ready.lifecycle = .ready ∧ ready.okCalls 4 ∧
    0x10FFFF ≤ 0x10FFFF := ⟨rfl, rfl, ready_okCalls 4, by decide⟩
theorem witness_WriteStringCompletes : ready.inFlight = none ∧ ready.lifecycle = .ready ∧
    ready.okCalls (4 * [0x141, 0x10FFFF].length) ∧ (∀ c ∈ [0x141, 0x10FFFF], c ≤ 0x10FFFF) :=
  ⟨rfl, rfl, ready_okCalls _, by decide⟩
theorem witness_WriteStringIsWriteCharThenRest : ready.inFlight = none ∧ ready.lifecycle = .ready ∧
    ready.okCalls (4 * ([0x42].length + 1)) ∧ (∀ d ∈ 0x41 :: [0x42], d ≤ 0x10FFFF) :=
  ⟨rfl, rfl, ready_okCalls _, by decide⟩
theorem witness_FirstFailureEndsTheDisplayRequest : (failing ready 6).inFlight = none ∧
    (failing ready 6).lifecycle = .ready ∧
    displayActions (failing ready 6).cfg (.writeString [0x41, 0x42]) = some (stringActions Config.defaults [0x41, 0x42]) ∧
    callAt 6 (stringActions Config.defaults [0x41, 0x42]) = some (.write 0x25) ∧ (failing ready 6).failsAt 6 7 :=
  ⟨rfl, rfl, by decide, by decide, failing_failsAt ready 6⟩
theorem witness_DisplayRequestOutsideReadyIsStateError : isDisplayRequest (.setCursor 5 0) = true ∧
    (Instr.setCursor 5 0).wellFormed = true ∧ failed.inFlight = none ∧ failed.lifecycle ≠ .ready :=
  ⟨rfl, rfl, rfl, by decide⟩

theorem witness_InitializeBringsUp : State.reset.inFlight = none ∧ State.reset.lifecycle = .notStarted ∧
    State.reset.answerAt 0 = some (.ok 0) ∧ State.reset.okCalls 25 := ⟨rfl, rfl, rfl, reset_okCalls 25⟩
theorem witness_InitializeFailsAtConnect : (failing State.reset 0).inFlight = none ∧
    (failing State.reset 0).lifecycle = .notStarted ∧ (failing State.reset 0).failsAt 0 7 :=
  ⟨rfl, rfl, failing_failsAt State.reset 0⟩
/-- At the first write and at the last. -/
theorem witness_InitializeFailsAtAWrite :
    (failing State.reset 1).inFlight = none ∧ (failing State.reset 1).lifecycle = .notStarted ∧
    (failing State.reset 1).answerAt 0 = some (.ok 0) ∧ 0 < 1 ∧
    callAt 1 (initializeActions (failing State.reset 1).cfg) = some (.write 0x34) ∧
    (failing State.reset 1).failsAt 1 7 ∧ (failing State.reset 24).answerAt 0 = some (.ok 0) ∧
    callAt 24 (initializeActions (failing State.reset 24).cfg) = some (.write 0x20) ∧
    (failing State.reset 24).failsAt 24 7 :=
  ⟨rfl, rfl, rfl, by decide, by decide, failing_failsAt State.reset 1, rfl, by decide, failing_failsAt State.reset 24⟩
/-- At `Connect`, at the first write, at the first write of a byte and at the last write. -/
theorem witness_UnansweredBringUpIsBootstrapping : (hanging State.reset 0).inFlight = none ∧
    (hanging State.reset 0).lifecycle = .notStarted ∧ 0 < 25 ∧ (hanging State.reset 0).hangsAt 0 ∧
    1 < 25 ∧ (hanging State.reset 1).hangsAt 1 ∧ (hanging State.reset 1).answerAt 0 = some (.ok 0) ∧
    9 < 25 ∧ (hanging State.reset 9).hangsAt 9 ∧ (hanging State.reset 9).answerAt 0 = some (.ok 0) ∧
    24 < 25 ∧ (hanging State.reset 24).hangsAt 24 ∧ (hanging State.reset 24).answerAt 0 = some (.ok 0) :=
  ⟨rfl, rfl, by decide, hanging_hangsAt _ 0, by decide, hanging_hangsAt _ 1, rfl, by decide, hanging_hangsAt _ 9, rfl,
    by decide, hanging_hangsAt _ 24, rfl⟩
theorem witness_InitializeRunsOnce : ready.inFlight = none ∧ ready.lifecycle ≠ .notStarted := ⟨rfl, by decide⟩
/-- Outside `Ready` with actions, and in `Ready` without. -/
theorem witness_ShutdownWithoutActionsIsSilent :
    ({ withActions with lifecycle := .failed } : State).inFlight = none ∧
    ({ withActions with lifecycle := .failed } : State).lifecycle ≠ .ready ∧
    ready.inFlight = none ∧ ready.cfg.shutdownActions = [] := ⟨rfl, by decide, rfl, rfl⟩
theorem witness_ShutdownRunsItsActions : withActions.inFlight = none ∧ withActions.lifecycle = .ready ∧
    withActions.okCalls (calls (withActions.cfg.shutdownActions.map portAction)) ∧
    callAt 1 ((failing withActions 1).cfg.shutdownActions.map portAction) = some (.write 0x00) ∧
    (failing withActions 1).failsAt 1 7 ∧
    callAt 1 ((hanging withActions 1).cfg.shutdownActions.map portAction) = some (.write 0x00) ∧
    (hanging withActions 1).hangsAt 1 :=
  ⟨rfl, rfl, okCalls_of_standing rfl rfl _, by decide, failing_failsAt _ 1, by decide, hanging_hangsAt _ 1⟩
theorem witness_IdentityReturnsTheName : failed.inFlight = none := rfl
theorem witness_ConstructionCapturesConfiguration : (⟨some 0x27, none⟩ : Options).addr = some 0x27 ∧
    (⟨some 0x27, none⟩ : Options).bus = none ∧ (⟨none, some 1⟩ : Options).addr = none ∧
    (⟨none, some 1⟩ : Options).bus = some 1 := ⟨rfl, rfl, rfl, rfl⟩

theorem witness_StepKeepsTheInvariant : (offered ready (.request 0x10 [])).Inv ∧
    ∃ t, step (offered ready (.request 0x10 [])) = .next t := ⟨ready_inv, _, rfl⟩
theorem witness_OnlyInitializeMovesTheLifecycle :
    ∃ t, exec .initializeReq State.reset = .next t ∧ t.lifecycle ≠ State.reset.lifecycle := ⟨_, rfl, by decide⟩
theorem witness_LifecycleFollowsItsTable : (offered State.reset (.request 0x01 [])).Inv ∧
    ∃ t, step (offered State.reset (.request 0x01 [])) = .next t := ⟨reset_inv, _, rfl⟩
theorem witness_ConfigurationNeverChanges :
    ∃ t, step (offered State.reset (.request 0x01 [])) = .next t := ⟨_, rfl⟩
theorem witness_ConnectionIsImmutable : (offered ready (.request 0x01 [])).Inv ∧
    (offered ready (.request 0x01 [])).conn = some 0 ∧ ∃ t, step (offered ready (.request 0x01 [])) = .next t :=
  ⟨ready_inv, rfl, _, rfl⟩
theorem witness_ConnectIsIssuedAtMostOnce : (offered State.reset (.request 0x01 [])).Inv ∧
    (offered State.reset (.request 0x01 [])).connectedOnce ∧
    ∃ t, step (offered State.reset (.request 0x01 [])) = .next t := ⟨reset_inv, by (show (0 : Nat) ≤ 0; decide), _, rfl⟩
theorem witness_EveryCallGoesToTheOneTarget : ∃ t, step (offered ready (.request 0x11 [])) = .next t := ⟨_, rfl⟩
/-- A request that returned, and one that has not; and a step that ends a request in flight, and one that does not. -/
theorem witness_ExactlyOneResponse : (∃ t, exec .home ready = .next t ∧ t.inFlight = none) ∧
    (∃ t, exec .home (hanging ready 2) = .next t ∧ t.inFlight ≠ none) ∧
    blockedOk.inFlight ≠ none ∧ (∃ t, step blockedOk = .next t ∧ t.inFlight = none) ∧
    blocked.inFlight ≠ none ∧ ∃ t, step blocked = .next t ∧ t.inFlight ≠ none :=
  ⟨⟨_, rfl, rfl⟩, ⟨_, rfl, nofun⟩, nofun, ⟨_, rfl, rfl⟩, nofun, _, rfl, nofun⟩
/-- A request that issued nothing, a bring-up whose `Connect` failed, and a unit before bring-up. -/
theorem witness_WritesGoOverAConnection :
    State.reset.Inv ∧ (∃ t, exec .clear State.reset = .next t ∧ t.conn = none) ∧
    (failing State.reset 0).Inv ∧ (∃ t, exec .initializeReq (failing State.reset 0) = .next t ∧ t.conn = none) ∧
    failed.Inv ∧ Instr.cmdClear ≠ .initializeReq ∧ failed.mayWrite = false ∧ (∃ t, exec .cmdClear failed = .next t) ∧
    (offered State.reset (.raw 0x3)).Inv ∧ (∃ t, step (offered State.reset (.raw 0x3)) = .next t ∧ t.conn = none) ∧
    isHostRequest .rawInit8bit = false ∧ State.reset.inFlight = none ∧ State.reset.mayWrite = false :=
  ⟨reset_inv, ⟨_, rfl, rfl⟩, reset_inv, ⟨_, rfl, rfl⟩, failed_inv, nofun, rfl, ⟨_, rfl⟩, reset_inv, ⟨_, rfl, rfl⟩, rfl,
    rfl, rfl⟩
/-- `initialize`, another request, and a request in flight; both clauses. -/
theorem witness_FailingCallEndsTheRequest :
    (∃ t, exec .initializeReq (failing State.reset 0) = .next t ∧ Action.connect.isCall = true ∧
      t.trace = (failing State.reset 0).trace ++ [] ++ (failing State.reset 0).errEvent 7 .connect ::
        [.response (.err (.transportError 7))]) ∧
    (∃ t, exec .clear (failing ready 0) = .next t ∧ (Action.write 0x04).isCall = true ∧
      t.trace = (failing ready 0).trace ++ [] ++ (failing ready 0).errEvent 7 (.write 0x04) ::
        [.response (.err (.transportError 7))] ∧
      t.trace = (failing ready 0).trace ++ [.write 0 0 0x04 (.err 7)] ++ [.response (.err (.transportError 7))]) ∧
    (failing blocked 0).inFlight = some inFlightClear ∧
    ∃ t, step (failing blocked 0) = .next t ∧ (Action.write 0x14).isCall = true ∧
      t.trace = (failing blocked 0).trace ++ [] ++ (failing blocked 0).errEvent 7 (.write 0x14) ::
        [.response (.err (.transportError 7))] ∧
      t.trace = (failing blocked 0).trace ++ [.write 0 0 0x14 (.err 7)] ++ [.response (.err (.transportError 7))] :=
  ⟨⟨_, rfl, rfl, rfl⟩, ⟨_, rfl, rfl, rfl, rfl⟩, rfl, _, rfl, rfl, rfl, rfl⟩
theorem witness_StepKeepsTheTraceFramed : (offered ready (.request 0x10 [])).Framed ∧
    ∃ t, step (offered ready (.request 0x10 [])) = .next t := ⟨⟨rfl, rfl⟩, _, rfl⟩
theorem witness_ConstructionIsFramed : Config.defaults.shutdownActions = [] := rfl

theorem witness_BringUpCommitsTheController : State.reset.inFlight = none ∧ State.reset.lifecycle = .notStarted ∧
    State.reset.okCalls 25 ∧ State.reset.lcd.ifmode = .unknown ∧ State.reset.lcd.lost = false ∧
    ∃ t, exec .initializeReq State.reset = .next t := ⟨rfl, rfl, reset_okCalls 25, rfl, rfl, _, rfl⟩
theorem witness_DisplayRequestsHaveTheirDownstreamEffect : ready.inFlight = none ∧ ready.lifecycle = .ready ∧
    ready.okCalls 4 ∧ ready.inStep ∧ (∃ t, exec .clear ready = .next t) ∧ (∃ t, exec .home ready = .next t) ∧
    (∃ t, exec (.setCursor 1 15) ready = .next t) ∧ (∃ t, exec (.writeChar 0x10FFFF) ready = .next t) ∧
    [0x41, 0x10FFFF] ≠ [] ∧ (∀ c ∈ [0x41, 0x10FFFF], c ≤ 0x10FFFF) ∧ ready.okCalls (4 * [0x41, 0x10FFFF].length) ∧
    (∃ t, exec (.writeString [0x41, 0x10FFFF]) ready = .next t) ∧ (∃ t, exec (.writeString []) ready = .next t) :=
  ⟨rfl, rfl, ready_okCalls 4, ready_inStep, ⟨_, rfl⟩, ⟨_, rfl⟩, ⟨_, rfl⟩, ⟨_, rfl⟩, nofun, by decide, ready_okCalls _,
    ⟨_, rfl⟩, _, rfl⟩
theorem witness_UnitsHaveTheirDownstreamEffect : ready.inFlight = none ∧ ready.mayWrite = true ∧ ready.okCalls 4 ∧
    ready.inStep ∧ (∃ t, exec .cmdFunctionSet2line ready = .next t) ∧ (∃ t, exec .cmdDisplayOn ready = .next t) ∧
    (∃ t, exec .cmdClear ready = .next t) ∧ (∃ t, exec .cmdHome ready = .next t) ∧
    (∃ t, exec (.cmdSetDdramAddress 0x7F) ready = .next t) ∧ (∃ t, exec (.dataChar 0xFF) ready = .next t) ∧
    (∃ t, exec (.sendData 0xFF) ready = .next t) ∧ (∃ t, exec (.sendCommand 0x00) ready = .next t) :=
  ⟨rfl, rfl, ready_okCalls 4, ready_inStep, ⟨_, rfl⟩, ⟨_, rfl⟩, ⟨_, rfl⟩, ⟨_, rfl⟩, ⟨_, rfl⟩, ⟨_, rfl⟩, ⟨_, rfl⟩, _, rfl⟩
theorem witness_FailedRequestLosesTheDisplay : (failing ready 2).inFlight = none ∧
    (failing ready 2).lifecycle = .ready ∧
    displayActions (failing ready 2).cfg .clear = some (clearActions Config.defaults) ∧
    2 < calls (clearActions Config.defaults) ∧ (failing ready 2).failsAt 2 7 ∧
    ∃ t, exec .clear (failing ready 2) = .next t := ⟨rfl, rfl, rfl, by decide, failing_failsAt ready 2, _, rfl⟩
theorem witness_LostDisplayStaysLost : (offered lostDisplay (.request 0x10 [])).lcd.lost = true ∧
    (offered lostDisplay (.request 0x10 [])).displayUnknown ∧
    ∃ t, step (offered lostDisplay (.request 0x10 [])) = .next t := ⟨rfl, ⟨rfl, rfl, rfl, rfl, rfl⟩, _, rfl⟩
/-- Before bring-up, for a host request and for a unit; and after the display was lost. -/
theorem witness_NothingIsKnownBeforeBringUp : (offered State.reset (.raw 0x3)).Inv ∧
    (offered State.reset (.raw 0x3)).lifecycle = .notStarted ∧ (offered State.reset (.raw 0x3)).lcd.ifmode = .unknown ∧
    (offered State.reset (.raw 0x3)).displayUnknown ∧
    (∃ t, step (offered State.reset (.raw 0x3)) = .next t ∧ t.lifecycle = .notStarted) ∧
    (∃ t, step (offered State.reset (.request 0x10 [])) = .next t ∧ t.lifecycle = .notStarted) ∧
    (offered lostDisplay (.request 0x10 [])).lcd.lost = true ∧ (offered lostDisplay (.request 0x10 [])).displayUnknown ∧
    ∃ t, step (offered lostDisplay (.request 0x10 [])) = .next t :=
  ⟨reset_inv, rfl, rfl, ⟨rfl, rfl, rfl, rfl, rfl⟩, ⟨_, rfl, rfl⟩, ⟨_, rfl, rfl⟩, rfl, ⟨rfl, rfl, rfl, rfl, rfl⟩, _, rfl⟩

end Sys2Proof.Tests
end

/-! PROOFS. Family 00_scope.md: the one response of a request (R12, R13). -/

namespace Sys2Proof.Machine

/-- Returning a response after a stretch of trace that holds none answers the request once. -/
theorem State.SameBlock.answeredOnce_respond {s u : State} (h : s.SameBlock u) (hf : s.inFlight = none)
    (r : Response) : s.answeredOnce (u.respond r) := by
  obtain ⟨ev, htrace, -, hnone⟩ := h.trace
  refine ⟨ev ++ [.response r], ?_, fun _ => ⟨ev, r, rfl, hnone⟩, fun hn => ?_⟩
  · rw [State.respond_trace, htrace, List.append_assoc]
  · exact absurd (h.inFlight.trans hf) hn

/-- A list run from a state with nothing in flight answers its request once: the run itself adds no response, and only
its end returns one. -/
theorem answeredOnce_conclude_runFrom (req : Instr) (list rest : List Slot) (seq : Nat) {s : State}
    (hf : s.inFlight = none) : s.answeredOnce (conclude req list (runFrom rest seq s)) := by
  have hrun : s.SameBlock (runFrom rest seq s).state := runFrom_sameBlock rest seq s
  have hsettle (u : State) (l : Lifecycle) (r : Response) (hu : s.SameBlock u) :
      s.answeredOnce ((u.settleLifecycle req l).respond r) := by
    simpa [State.answeredOnce] using hu.answeredOnce_respond hf r
  obtain ⟨u, hend, heq⟩ | ⟨e, u, hend, heq⟩ | ⟨seq', dp, u, hend, heq⟩ :=
    conclude_cases req list (runFrom rest seq s) <;> rw [heq] <;> rw [hend] at hrun
  · exact hsettle u _ _ hrun
  · exact hsettle u _ _ hrun
  · obtain ⟨ev, htrace, -, hnone⟩ := hrun.trace
    exact ⟨ev, htrace, nofun, fun _ => hnone⟩

/-- Settles O48, by the cases of `exec` and `step`: a response given at once, or a list run to its end, to a failing
call or to a call that has not returned. -/
theorem exactlyOneResponse : Obligations.ExactlyOneResponse := by
  intro s t
  constructor
  · intro i h
    obtain ⟨hf, ⟨r, rfl, -⟩ | ⟨-, -, rfl⟩ | ⟨-, -, -, L, -, rfl⟩⟩ := exec_cases h
    · exact (State.SameBlock.refl s).answeredOnce_respond hf r
    · exact answeredOnce_conclude_runFrom (s := { s with lifecycle := .bootstrapping }) _ _ _ _ hf
    · exact answeredOnce_conclude_runFrom _ _ _ _ hf
  · intro hf h
    obtain ⟨f, -, rfl⟩ | ⟨hn, -⟩ | ⟨hn, -⟩ := step_cases h
    · exact answeredOnce_conclude_runFrom (s := { s with inFlight := none }) _ _ _ _ rfl
    · exact absurd hn hf
    · exact absurd hn hf

end Sys2Proof.Machine

/-! PROOFS. Family 10_state.md: the lifecycle, the configuration and the connection registers, and the invariant of a
legal run (R20 to R28). -/

namespace Sys2Proof.Machine

/-! ### The bring-up list in parts -/

/-- The bring-up before 4-bit mode, after its `Connect` (R69 steps 2 to 4). -/
def bringUpRaw (p : Params) : List Slot :=
  waitSlot p.tPowerOn noData :: ((List.replicate Config.initRepeat (rawInit8Seq p)).flatten ++ rawInit4Seq p)

/-- The bytes of the bring-up (R69 steps 5 to 8). -/
def bringUpBytes (p : Params) : List Slot :=
  commandSeq p Config.cmdFunctionSet2Line ++ (commandSeq p Config.cmdDisplayOn ++ (clearSeq p ++ homeSeq p))

/-- The bring-up is its one `Connect`, the raw nibbles and the bytes (R69). -/
theorem bringUpSeq_eq (p : Params) : bringUpSeq p = ⟨.connect, noData⟩ :: (bringUpRaw p ++ bringUpBytes p) := by
  simp [bringUpSeq, bringUpRaw, bringUpBytes]

theorem bringUpRaw_no_connect (p : Params) : ∀ a ∈ bringUpRaw p, a.act ≠ .connect := by
  simp only [bringUpRaw, List.mem_cons, List.mem_append, List.mem_flatten, List.mem_replicate]
  rintro a (rfl | ⟨L, ⟨-, rfl⟩, ha⟩ | ha)
  · simp [waitSlot]
  · exact rawInit8Seq_no_connect p a ha
  · exact rawNibbleSeq_no_connect p _ a ha

theorem bringUpBytes_no_connect (p : Params) : ∀ a ∈ bringUpBytes p, a.act ≠ .connect := by
  simp only [bringUpBytes, List.mem_append]
  rintro a (ha | ha | ha | ha)
  · exact byteSeq_no_connect p false _ a ha
  · exact byteSeq_no_connect p false _ a ha
  · exact clearSeq_no_connect p a ha
  · exact homeSeq_no_connect p a ha

theorem bringUpRest_no_connect (p : Params) : ∀ a ∈ bringUpRaw p ++ bringUpBytes p, a.act ≠ .connect :=
  fun a ha => (List.mem_append.mp ha).elim (bringUpRaw_no_connect p a) (bringUpBytes_no_connect p a)

/-- Once past its first action the bring-up issues no `Connect` (R35). -/
theorem bringUpSeq_drop_no_connect (p : Params) {seq : Nat} (h : seq ≠ 0) :
    ∀ a ∈ (bringUpSeq p).drop seq, a.act ≠ .connect := by
  obtain ⟨n, rfl⟩ := Nat.exists_eq_succ_of_ne_zero h
  rw [bringUpSeq_eq, List.drop_succ_cons]
  exact fun a ha => bringUpRest_no_connect p a (List.mem_of_mem_drop ha)

/-! ### What the end of a list leaves -/

@[simp] theorem RunEnd.state_done (s : State) : (RunEnd.done s).state = s := rfl
@[simp] theorem RunEnd.state_failed (e : BusError) (s : State) : (RunEnd.failed e s).state = s := rfl
@[simp] theorem RunEnd.state_blocked (k : Nat) (dp : Datapath) (s : State) : (RunEnd.blocked k dp s).state = s := rfl

/-- A `Connect` that completed leaves a handle (R35). -/
theorem State.issue_connect_conn {s t : State} (h : s.issue .connect = .ok t) : ∃ c, t.conn = some c := by
  rcases ha : s.answerAt 0 with _ | c | e
  · simp [State.issue_call_blocked (a := .connect) rfl ha] at h
  · rw [State.issue_connect_ok ha] at h; cases h; exact ⟨c, rfl⟩
  · simp [State.issue_connect_err ha] at h

/-- However a list ends, the configuration registers are as before (R23 to R25). -/
theorem conclude_runFrom_config (req : Instr) (list rest : List Slot) (seq : Nat) (s : State) :
    let t := conclude req list (runFrom rest seq s)
    t.addr = s.addr ∧ t.bus = s.bus ∧ t.name = s.name ∧ t.cfg = s.cfg := by
  have hrun : s.SameBlock (runFrom rest seq s).state := runFrom_sameBlock rest seq s
  obtain ⟨u, hend, heq⟩ | ⟨e, u, hend, heq⟩ | ⟨seq', dp, u, hend, heq⟩ :=
    conclude_cases req list (runFrom rest seq s) <;> rw [hend] at hrun <;> rw [heq] <;>
    simpa using ⟨hrun.addr, hrun.bus, hrun.name, hrun.cfg⟩

/-- However a list ends, the lifecycle register is as before, or the list was the bring-up and has ended (R21). -/
theorem conclude_runFrom_lifecycle (req : Instr) (list rest : List Slot) (seq : Nat) (s : State) :
    let t := conclude req list (runFrom rest seq s)
    t.lifecycle = s.lifecycle ∨ (req = .initializeReq ∧ (t.lifecycle = .ready ∨ t.lifecycle = .failed)) := by
  have hrun : s.SameBlock (runFrom rest seq s).state := runFrom_sameBlock rest seq s
  have hsettle (u : State) (l : Lifecycle) (r : Response) (hu : s.SameBlock u) :
      ((u.settleLifecycle req l).respond r).lifecycle = s.lifecycle ∨
        (req = .initializeReq ∧ ((u.settleLifecycle req l).respond r).lifecycle = l) := by
    by_cases hreq : req = .initializeReq
    · subst hreq; exact .inr ⟨rfl, rfl⟩
    · rw [State.settleLifecycle_of_ne _ _ _ hreq]; exact .inl hu.lifecycle
  obtain ⟨u, hend, heq⟩ | ⟨e, u, hend, heq⟩ | ⟨seq', dp, u, hend, heq⟩ :=
    conclude_cases req list (runFrom rest seq s) <;> rw [hend] at hrun <;> rw [heq]
  · exact (hsettle u _ _ hrun).imp_right (.imp_right .inl)
  · exact (hsettle u _ _ hrun).imp_right (.imp_right .inr)
  · exact .inl hrun.lifecycle

/-! ### A request that runs legally -/

/-- The request `req` may run `list` from index `seq` on: nothing is in flight, and what `inFlightLegal` asks of the
lifecycle, the connection and the list holds, with a connection for whatever is no bring-up (R22, R27, R36). -/
structure State.RunsLegally (s : State) (req : Instr) (list : List Slot) (seq : Nat) : Prop where
  idle    : s.inFlight = none
  bringUp : req = .initializeReq →
    s.lifecycle = .bootstrapping ∧ list = bringUpSeq s.cfg ∧ (seq = 0 ↔ s.conn = none)
  other   : req ≠ .initializeReq →
    s.lifecycle = .ready ∧ s.conn ≠ none ∧ permitted req s = true ∧ ∀ a ∈ list, a.act ≠ .connect

section RunsLegally
variable {s u : State} {req : Instr} {list pre : List Slot} {seq : Nat}

/-- A legal run over a connection has no `Connect` before it (R26, R35). -/
theorem State.RunsLegally.no_connect (h : s.RunsLegally req list seq) (hconn : s.conn ≠ none) :
    ∀ a ∈ list.drop seq, a.act ≠ .connect := by
  by_cases hreq : req = .initializeReq
  · obtain ⟨-, rfl, hseq⟩ := h.bringUp hreq
    exact bringUpSeq_drop_no_connect s.cfg (fun h0 => hconn (hseq.mp h0))
  · obtain ⟨-, -, -, hno⟩ := h.other hreq
    exact fun a ha => hno a (List.mem_of_mem_drop ha)

/-- A legal run keeps the connection it began with. -/
theorem State.RunsLegally.conn_eq (h : s.RunsLegally req list seq) (hconn : s.conn ≠ none)
    (hpre : pre <+: list.drop seq) : (runFrom pre seq s).state.conn = s.conn :=
  runFrom_conn_of_no_connect pre seq s fun a ha => h.no_connect hconn a (hpre.subset ha)

/-- A bring-up that has completed the actions up to an index has a connection exactly when that index is past
`Connect` (R26, R35). -/
theorem State.RunsLegally.conn_none_iff (h : s.RunsLegally .initializeReq list seq) (hpre : pre <+: list.drop seq)
    (hrun : runFrom pre seq s = .done u) : seq + pre.length = 0 ↔ u.conn = none := by
  obtain ⟨-, rfl, hseq⟩ := h.bringUp rfl
  by_cases hconn : s.conn = none
  · obtain rfl := hseq.mpr hconn
    cases pre with
    | nil => cases hrun; simpa using hconn
    | cons a pre =>
      rw [List.drop_zero, bringUpSeq_eq, List.cons_prefix_cons] at hpre
      obtain ⟨rfl, hpre⟩ := hpre
      have hno : ∀ b ∈ pre, b.act ≠ .connect := fun b hb => bringUpRest_no_connect _ b (hpre.subset hb)
      cases hi : s.issue .connect with
      | ok t =>
        obtain ⟨c, hc⟩ := State.issue_connect_conn hi
        have hu : (runFrom pre 1 t).state.conn = t.conn := runFrom_conn_of_no_connect pre 1 t hno
        have hrest : runFrom pre 1 t = .done u := by simpa [runFrom, hi] using hrun
        rw [hrest] at hu
        simp [show u.conn = some c from hu.trans hc]
      | err e t => simp [runFrom, hi] at hrun
      | blocked => simp [runFrom, hi] at hrun
  · have hu : u.conn = s.conn := by simpa [hrun] using h.conn_eq hconn hpre
    have hpos : seq ≠ 0 := fun h0 => hconn (hseq.mp h0)
    simp [hu, hconn, hpos]

/-- Nothing in flight: what is left of the invariant. -/
theorem State.inv_of_idle (hidle : s.inFlight = none) (hboot : s.lifecycle ≠ .bootstrapping)
    (hstart : s.lifecycle = .notStarted → s.conn = none) (hready : s.lifecycle = .ready → s.conn ≠ none) : s.Inv :=
  ⟨hstart, hready, fun h => absurd h hboot, fun f hf => by rw [hidle] at hf; cases hf⟩

/-- A legal request in flight: what is left of the invariant. -/
theorem State.inv_of_inFlight {f : InFlight} (hf : s.inFlight = some f) (hlegal : s.inFlightLegal f)
    (hready : s.lifecycle = .ready → s.conn ≠ none) : s.Inv := by
  have ⟨_, hinit, hother⟩ := hlegal
  refine ⟨fun hstart => ?_, hready, fun hboot => ⟨f, hf, ?_⟩, fun g hg => ?_⟩
  · by_cases hreq : f.req = .initializeReq
    · simp [(hinit hreq).1] at hstart
    · simp [(hother hreq).1] at hstart
  · by_contra hreq
    simp [(hother hreq).1] at hboot
  · obtain rfl := Option.some.inj (hf.symm.trans hg)
    exact hlegal

/-- A legal request runs on from what is in flight (R28). -/
theorem State.Inv.runsLegally_inFlight {f : InFlight} (h : s.Inv) (hf : s.inFlight = some f) :
    { s with inFlight := none }.RunsLegally f.req f.list f.seq := by
  obtain ⟨-, hready, -, hlegal⟩ := h
  obtain ⟨-, hinit, hother⟩ := hlegal f hf
  refine ⟨rfl, hinit, fun hreq => ?_⟩
  obtain ⟨hl, hperm, hno⟩ := hother hreq
  exact ⟨hl, hready hl, (permitted_congr (s := s) rfl rfl f.req).trans hperm, hno⟩

/-- A run that blocked waits at a call of the list it is part of, with that call's transient values (R28, R29). -/
theorem runFrom_drop_blocked_at {k : Nat} {dp : Datapath} (h : runFrom (list.drop seq) seq s = .blocked k dp u) :
    ∃ a, list[k]? = some a ∧ a.act.isCall = true ∧ dp = a.dp := by
  obtain ⟨pre, x, post, hdrop, rfl, hcall, hdp, -, -⟩ := runFrom_blocked_inv h
  exact ⟨x, by rw [← List.getElem?_drop, hdrop]; simp, hcall, hdp⟩

/-- However a legal bring-up ends, its end meets the invariant (R22, R26, R27). -/
theorem State.RunsLegally.conclude_inv_of_bringUp (h : s.RunsLegally .initializeReq list seq) :
    (conclude .initializeReq list (runFrom (list.drop seq) seq s)).Inv := by
  have hrun : s.SameBlock (runFrom (list.drop seq) seq s).state := runFrom_sameBlock _ _ _
  obtain ⟨hboot, hlist, -⟩ := h.bringUp rfl
  obtain ⟨u, hend, heq⟩ | ⟨e, u, hend, heq⟩ | ⟨k, dp, u, hend, heq⟩ :=
    conclude_cases .initializeReq list (runFrom (list.drop seq) seq s) <;> rw [heq] <;> rw [hend] at hrun
  · have hconn : u.conn ≠ none := fun hu => by
      have hlen := (h.conn_none_iff (List.prefix_refl _) hend).mpr hu
      rw [hlist, List.length_drop, bringUpSeq_eq, List.length_cons] at hlen
      omega
    exact State.inv_of_idle (by simpa using hrun.inFlight.trans h.idle) (by simp) (by simp) (by simp [hconn])
  · exact State.inv_of_idle (by simpa using hrun.inFlight.trans h.idle) (by simp) (by simp) (by simp)
  · have hl : u.lifecycle = .bootstrapping := hrun.lifecycle.trans hboot
    have hiff : k = 0 ↔ u.conn = none := by
      obtain ⟨pre, x, post, hdrop, rfl, -, -, -, hpre⟩ := runFrom_blocked_inv hend
      exact h.conn_none_iff (hdrop ▸ List.prefix_append _ _) hpre
    have hcfg : list = bringUpSeq u.cfg := hlist.trans (congrArg bringUpSeq hrun.cfg.symm)
    exact State.inv_of_inFlight rfl
      ⟨runFrom_drop_blocked_at hend, fun _ => ⟨hl, hcfg, hiff⟩, fun hne => absurd rfl hne⟩ (by simp [hl])

/-- However a legal list that is no bring-up ends, its end meets the invariant (R27, R28). -/
theorem State.RunsLegally.conclude_inv_of_other (h : s.RunsLegally req list seq) (hreq : req ≠ .initializeReq) :
    (conclude req list (runFrom (list.drop seq) seq s)).Inv := by
  obtain ⟨hready, hconn, hperm, hno⟩ := h.other hreq
  have hrun : s.SameBlock (runFrom (list.drop seq) seq s).state := runFrom_sameBlock _ _ _
  have hkept : (runFrom (list.drop seq) seq s).state.conn = s.conn := h.conn_eq hconn (List.prefix_refl _)
  have hidle (u : State) (r : Response) (hu : s.SameBlock u) (hc : u.conn = s.conn) : (u.respond r).Inv :=
    State.inv_of_idle (hu.inFlight.trans h.idle) (by simp [hu.lifecycle, hready]) (by simp [hu.lifecycle, hready])
      (by simp [hc, hconn])
  obtain ⟨u, hend, heq⟩ | ⟨e, u, hend, heq⟩ | ⟨k, dp, u, hend, heq⟩ :=
    conclude_cases req list (runFrom (list.drop seq) seq s) <;> rw [heq] <;> rw [hend] at hrun hkept
  · rw [State.settleLifecycle_of_ne _ _ _ hreq]; exact hidle u _ hrun hkept
  · rw [State.settleLifecycle_of_ne _ _ _ hreq]; exact hidle u _ hrun hkept
  · refine State.inv_of_inFlight rfl ⟨runFrom_drop_blocked_at hend, fun h => absurd h hreq, fun _ => ?_⟩
      fun _ hc => hconn (hkept.symm.trans hc)
    exact ⟨hrun.lifecycle.trans hready, (permitted_congr (s := s) hrun.lifecycle hkept req).trans hperm, hno⟩

/-- However a legal run ends, its end meets the invariant. -/
theorem State.RunsLegally.conclude_inv (h : s.RunsLegally req list seq) :
    (conclude req list (runFrom (list.drop seq) seq s)).Inv := by
  by_cases hreq : req = .initializeReq
  · subst hreq; exact h.conclude_inv_of_bringUp
  · exact h.conclude_inv_of_other hreq

/-- A legal run over a connection ends with that connection (R26). -/
theorem State.RunsLegally.conclude_conn (h : s.RunsLegally req list seq) (hconn : s.conn ≠ none) :
    (conclude req list (runFrom (list.drop seq) seq s)).conn = s.conn := by
  have hkept : (runFrom (list.drop seq) seq s).state.conn = s.conn := h.conn_eq hconn (List.prefix_refl _)
  obtain ⟨u, hend, heq⟩ | ⟨e, u, hend, heq⟩ | ⟨k, dp, u, hend, heq⟩ :=
    conclude_cases req list (runFrom (list.drop seq) seq s) <;> rw [heq] <;> rw [hend] at hkept <;>
    simpa using hkept

end RunsLegally

/-! ### What a step can do in a legal state -/

/-- The invariant speaks of four registers only. -/
theorem State.Inv.congr {s t : State} (h : s.Inv) (hl : t.lifecycle = s.lifecycle) (hc : t.conn = s.conn)
    (hf : t.inFlight = s.inFlight) (hcfg : t.cfg = s.cfg) : t.Inv := by
  simpa only [State.Inv, State.inFlightLegal, hl, hc, hf, hcfg, permitted_congr hl hc] using h

/-- What an instruction does from a legal state `s` to `t`: a response at once, or a legal run, from a state that has
the connection of `s` and its lifecycle, or `Bootstrapping` where that was `NotStarted`. -/
def RespondsOrRuns (s t : State) : Prop :=
  (∃ r, t = s.respond r) ∨
  (∃ s₀ req list seq, s₀.RunsLegally req list seq ∧ s₀.conn = s.conn ∧
    (s₀.lifecycle = s.lifecycle ∨ s.lifecycle = .notStarted) ∧
    t = conclude req list (runFrom (list.drop seq) seq s₀))

/-- An instruction executed in a legal state (R36, R68). -/
theorem exec_respondsOrRuns {i : Instr} {s t : State} (h : s.Inv) (hexec : exec i s = .next t) :
    RespondsOrRuns s t := by
  have ⟨hstart, hconn, _, _⟩ := h
  obtain ⟨hidle, ⟨r, rfl, -⟩ | ⟨rfl, hl, rfl⟩ | ⟨hne, hperm, hwhen, L, hno, rfl⟩⟩ := exec_cases hexec
  · exact .inl ⟨r, rfl⟩
  · have hrun : { s with lifecycle := .bootstrapping }.RunsLegally .initializeReq (bringUpSeq s.cfg) 0 :=
      ⟨hidle, fun _ => ⟨rfl, rfl, iff_of_true rfl (hstart hl)⟩, fun hne => absurd rfl hne⟩
    exact .inr ⟨_, _, _, 0, hrun, rfl, .inr hl, rfl⟩
  · have hready : s.lifecycle = .ready := hwhen.elim id (h.mayWrite_iff_ready hidle).mp
    have hrun : s.RunsLegally i L 0 :=
      ⟨hidle, fun hi => absurd hi hne, fun _ => ⟨hready, hconn hready, hperm, hno⟩⟩
    exact .inr ⟨s, i, L, 0, hrun, rfl, .inl rfl, rfl⟩

/-- A step in a legal state waits, or goes on with what is in flight, or executes the item it takes from the port. -/
theorem step_respondsOrRuns {s t : State} (h : s.Inv) (hstep : step s = .next t) :
    t = s ∨ ∃ rest, { s with port := rest }.Inv ∧ RespondsOrRuns { s with port := rest } t := by
  obtain ⟨f, hf, rfl⟩ | ⟨-, rfl⟩ | ⟨-, q, rest, i, -, -, hexec⟩ := step_cases hstep
  · exact .inr ⟨s.port, h, .inr ⟨_, f.req, f.list, f.seq, h.runsLegally_inFlight hf, rfl, .inl rfl, rfl⟩⟩
  · exact .inl rfl
  · have hrest : { s with port := rest }.Inv := h.congr rfl rfl rfl rfl
    exact .inr ⟨rest, hrest, exec_respondsOrRuns hrest hexec⟩

/-- R21's table allows staying in a state. -/
theorem legalMove_refl (l : Lifecycle) : legalMove l l = true := by cases l <;> rfl

/-! ### The obligations about steps and construction -/

/-- Settles O41: a step in a legal state waits, responds, or runs a list legally to its end, to a failing call or to a
call that has not returned. -/
theorem stepKeepsTheInvariant : Obligations.StepKeepsTheInvariant := by
  intro s t h hstep
  obtain rfl | ⟨rest, hinv, ⟨r, rfl⟩ | ⟨s₀, req, list, seq, hrun, -, -, rfl⟩⟩ := step_respondsOrRuns h hstep
  · exact h
  · exact hinv.congr rfl rfl rfl rfl
  · exact hrun.conclude_inv

/-- Settles O42: an instruction responds at once, brings up out of `NotStarted`, or runs a list that is no
bring-up, whose end leaves the lifecycle alone. -/
theorem onlyInitializeMovesTheLifecycle : Obligations.OnlyInitializeMovesTheLifecycle := by
  intro i s t hexec hmoved
  obtain ⟨-, ⟨r, rfl, -⟩ | ⟨hi, hstart, -⟩ | ⟨hne, -, -, L, -, rfl⟩⟩ := exec_cases hexec
  · exact absurd rfl hmoved
  · exact ⟨hi, hstart⟩
  · obtain hsame | ⟨hi, -⟩ := conclude_runFrom_lifecycle i L L 0 s
    · exact absurd hsame hmoved
    · exact absurd hi hne

/-- Settles O43: out of `NotStarted` every row is in the table; a run that starts elsewhere leaves the lifecycle alone
unless it is a bring-up, which is in `Bootstrapping` and ends `Ready` or `Failed`. -/
theorem lifecycleFollowsItsTable : Obligations.LifecycleFollowsItsTable := by
  intro s t h hstep
  obtain rfl | ⟨rest, -, ⟨r, rfl⟩ | ⟨s₀, req, list, seq, hrun, -, hl | hl, rfl⟩⟩ := step_respondsOrRuns h hstep
  · exact legalMove_refl _
  · exact legalMove_refl _
  · rw [show s.lifecycle = s₀.lifecycle from hl.symm]
    obtain hsame | ⟨hreq, hend⟩ := conclude_runFrom_lifecycle req list (list.drop seq) seq s₀
    · rw [hsame]; exact legalMove_refl _
    · rw [(hrun.bringUp hreq).1]
      obtain hend | hend := hend <;> rw [hend] <;> rfl
  · rw [show s.lifecycle = .notStarted from hl]; rfl

/-- Settles O44: nothing that a step can end in writes a configuration register. -/
theorem configurationNeverChanges : Obligations.ConfigurationNeverChanges := by
  intro s t hstep
  obtain ⟨f, -, rfl⟩ | ⟨-, rfl⟩ | ⟨-, q, rest, i, -, -, hexec⟩ := step_cases hstep
  · exact conclude_runFrom_config f.req f.list _ f.seq { s with inFlight := none }
  · exact ⟨rfl, rfl, rfl, rfl⟩
  · obtain ⟨-, ⟨r, rfl, -⟩ | ⟨-, -, rfl⟩ | ⟨-, -, -, L, -, rfl⟩⟩ := exec_cases hexec
    · exact ⟨rfl, rfl, rfl, rfl⟩
    · exact conclude_runFrom_config _ _ _ 0 { s with port := rest, lifecycle := .bootstrapping }
    · exact conclude_runFrom_config i L L 0 { s with port := rest }

/-- Settles O45: a legal run over a connection has no `Connect` before it. -/
theorem connectionIsImmutable : Obligations.ConnectionIsImmutable := by
  intro s t c h hc hstep
  obtain rfl | ⟨rest, -, ⟨r, rfl⟩ | ⟨s₀, req, list, seq, hrun, hconn, -, rfl⟩⟩ := step_respondsOrRuns h hstep
  · exact hc
  · exact hc
  · have hsome : s₀.conn = some c := hconn.trans hc
    exact (hrun.conclude_conn (by simp [hsome])).trans hsome

/-- Settles O40: construction leaves `NotStarted` with no connection and nothing in flight (R33). -/
theorem constructionMeetsTheInvariant : Obligations.ConstructionMeetsTheInvariant :=
  fun p o a d => State.inv_of_idle (State.construct_inFlight p o a d) (by simp) (by simp) (by simp)

end Sys2Proof.Machine

/-! PROOFS. Family 10_state.md: a request whose call does not return (R28, R29, R95). First what the action lists of
the machine are and which byte each of their calls sends, then where a run over them waits. -/

namespace Sys2Proof.Machine

/-! ### The calls of a list -/

/-- The slots of a list that are calls of the transport. -/
def callSlots (L : List Slot) : List Slot := L.filter fun x => x.act.isCall

theorem callSlots_append (L M : List Slot) : callSlots (L ++ M) = callSlots L ++ callSlots M := List.filter_append ..

theorem length_callSlots (L : List Slot) : (callSlots L).length = calls (acts L) := by
  rw [callSlots, ← List.countP_eq_length_filter, calls, acts, List.countP_map]
  rfl

/-- Call number `k` of a list is the action of its call slot number `k`. -/
theorem callAt_acts (k : Nat) (L : List Slot) : callAt k (acts L) = (callSlots L)[k]?.map Slot.act := by
  simp [callAt, callSlots, acts, List.filter_map, Function.comp_def]

/-- Call number `k` of a list is the first one after `k` calls. -/
theorem callSlots_getElem?_calls (pre post : List Slot) {x : Slot} (hx : x.act.isCall = true) :
    (callSlots (pre ++ x :: post))[calls (acts pre)]? = some x := by
  rw [callSlots_append, ← length_callSlots]
  simp [callSlots, hx]

/-- A list has a call of each number below its count. -/
theorem exists_callAt {k : Nat} {L : List Action} (hk : k < calls L) : ∃ a, callAt k L = some a :=
  ⟨_, List.getElem?_eq_getElem (by rwa [calls, List.countP_eq_length_filter] at hk)⟩

/-- Behind the calls of `L` the calls of `M` are counted from 0. -/
theorem callAt_append_right (L M : List Action) (k : Nat) : callAt (calls L + k) (L ++ M) = callAt k M := by
  rw [callAt, calls, List.countP_eq_length_filter, List.filter_append, List.getElem?_append_right (by omega),
    Nat.add_sub_cancel_left, callAt]

theorem mem_of_callSlots {L : List Slot} {k : Nat} {x : Slot} (h : (callSlots L)[k]? = some x) :
    x ∈ L ∧ x.act.isCall = true := List.mem_filter.mp (List.mem_of_getElem? h)

/-- A call that is no `Connect` is a write (R41). -/
theorem exists_write {a : Action} (hcall : a.isCall = true) (hne : a ≠ .connect) : ∃ v, a = .write v := by
  cases a with
  | connect => exact absurd rfl hne
  | write v => exact ⟨v, rfl⟩
  | delay t => cases hcall

/-! ### Frames -/

/-- A frame value has EN clear (R56, R76). -/
theorem enClear_of_isFrameValue (en : EnMask) {v : Byte} (h : isFrameValue v = true) : enClear en v = v := by
  have hzero : v &&& 0x0E = 0#8 := of_decide_eq_true h
  have hsub : (0x0E : Byte) ||| ~~~en.mask = BitVec.allOnes 8 := by cases en <;> rfl
  calc v &&& ~~~en.mask = (v &&& 0x0E) ||| (v &&& ~~~en.mask) := by rw [hzero, BitVec.zero_or]
    _ = v &&& (0x0E ||| ~~~en.mask) := (BitVec.and_or_distrib_left ..).symm
    _ = v := by rw [hsub, BitVec.and_allOnes]

/-- EN does not show once it is cleared again (R76). -/
theorem enClear_enSet (en : EnMask) (v : Byte) : enClear en (enSet en v) = enClear en v := by
  calc (v ||| en.mask) &&& ~~~en.mask = (v &&& ~~~en.mask) ||| (en.mask &&& ~~~en.mask) :=
        BitVec.and_or_distrib_right ..
    _ = v &&& ~~~en.mask := by simp

/-- EN is not RS (R8, R10). -/
theorem rsOf_enSet (en : EnMask) (v : Byte) : rsOf (enSet en v) = rsOf v := by
  cases en <;> revert v <;> decide

theorem isFrameValue_withRs_hi (rs : Bool) (b : Byte) : isFrameValue (withRs rs (hi b)) = true := by
  revert rs b; decide

theorem isFrameValue_withRs_lo (rs : Bool) (b : Byte) : isFrameValue (withRs rs (lo b)) = true := by
  revert rs b; decide

theorem rsOf_withRs_hi (rs : Bool) (b : Byte) : rsOf (withRs rs (hi b)) = rs := by
  revert rs b; decide

theorem rsOf_withRs_lo (rs : Bool) (b : Byte) : rsOf (withRs rs (lo b)) = rs := by
  revert rs b; decide

/-- The nibbles of its two EN-set frames put a byte together (R43, R80). -/
theorem nibbles_of_frames (en : EnMask) (rs : Bool) (b : Byte) :
    (enSet en (withRs rs (hi b))).extractLsb' 4 4 ++ (enSet en (withRs rs (lo b))).extractLsb' 4 4 = b := by
  cases en <;> cases rs <;> revert b <;> decide

/-- The high nibble's frame by the digits of the byte (R61). -/
theorem hi_eq_digit (b : Byte) : hi b = BitVec.ofNat 8 (16 * (b.toNat / 16)) := by
  revert b; decide

/-- The low nibble's frame by the digits of the byte (R61). -/
theorem lo_eq_digit (b : Byte) : lo b = BitVec.ofNat 8 (16 * (b.toNat % 16)) := by
  revert b; decide

theorem withRs_hi_eq_digit (b : Byte) : withRs true (hi b) = BitVec.ofNat 8 (16 * (b.toNat / 16) + 1) := by
  revert b; decide

theorem withRs_lo_eq_digit (b : Byte) : withRs true (lo b) = BitVec.ofNat 8 (16 * (b.toNat % 16) + 1) := by
  revert b; decide

/-! ### The action lists of the machine are the lists the statements print -/

/-- A pulse of a value with EN clear has R76's four actions. -/
theorem acts_pulse (p : Params) (dp : Datapath) (h : isFrameValue dp.v = true) :
    acts (pulse p dp) = nibbleActions p dp.v := by
  simp [pulse, nibbleActions, enSet, enClear_of_isFrameValue _ h]

theorem acts_rawInit8Seq (p : Params) : acts (rawInit8Seq p) = nibbleActions p 0x30 ++ [.delay p.tInitNibble] := by
  rw [rawInit8Seq, acts_append, rawNibbleSeq, acts_pulse _ _ (by decide)]
  rfl

theorem acts_rawInit4Seq (p : Params) : acts (rawInit4Seq p) = nibbleActions p 0x20 :=
  acts_pulse p _ (by decide)

theorem acts_byteSeq (p : Params) (rs : Bool) (b : Byte) :
    acts (byteSeq p rs b) = unitActions p (withRs rs (hi b)) (withRs rs (lo b)) := by
  rw [byteSeq, acts_append, acts_pulse _ _ (isFrameValue_withRs_hi rs b), acts_pulse _ _ (isFrameValue_withRs_lo rs b)]
  rfl

/-- R77. -/
theorem acts_commandSeq (p : Params) (b : Byte) : acts (commandSeq p b) = commandActions p b.toNat := by
  rw [commandSeq, acts_byteSeq, commandActions, ← hi_eq_digit, ← lo_eq_digit]
  rfl

/-- R78. -/
theorem acts_dataSeq (p : Params) (b : Byte) : acts (dataSeq p b) = dataActions p b.toNat := by
  rw [dataSeq, acts_byteSeq, dataActions, withRs_hi_eq_digit, withRs_lo_eq_digit]

/-- R82. -/
theorem acts_clearSeq (p : Params) : acts (clearSeq p) = clearActions p := by
  rw [clearSeq, acts_append, acts_commandSeq]
  rfl

/-- R83. -/
theorem acts_homeSeq (p : Params) : acts (homeSeq p) = homeActions p := by
  rw [homeSeq, acts_append, acts_commandSeq]
  rfl

/-- R86. -/
theorem acts_charSeq (p : Params) (c : Nat) : acts (charSeq p c) = dataActions p (c % 256) := by
  rw [charSeq, acts_dataSeq]
  simp [charByte]

/-- R87. -/
theorem acts_stringSeq (p : Params) (cs : List Nat) : acts (stringSeq p cs) = stringActions p cs := by
  induction cs with
  | nil => rfl
  | cons c cs ih =>
    have hseq : stringSeq p (c :: cs) = charSeq p c ++ stringSeq p cs := rfl
    rw [hseq, acts_append, acts_charSeq, ih]
    rfl

/-- R70. -/
theorem acts_bringUpSeq (p : Params) : acts (bringUpSeq p) = initializeActions p := by
  have hwait (t : Nat) (dp : Datapath) : (waitSlot t dp).act = .delay t := rfl
  simp only [bringUpSeq, acts_append, acts_cons, acts_nil, hwait, List.replicate, Config.initRepeat, List.flatten_cons,
    List.flatten_nil, acts_rawInit8Seq, acts_rawInit4Seq, acts_commandSeq, acts_clearSeq, acts_homeSeq]
  simp only [initializeActions, List.append_assoc, List.append_nil]
  rfl

/-- A valid cell has the command byte R46 gives it. -/
theorem decodeCell_of_validCell {row col : Int} (h : validCell row col = true) :
    ∃ b, decodeCell row col = some b ∧ b.toNat = (if row = 0 then 0x80 else 0xC0) + col.toNat := by
  refine ⟨_, by rw [decodeCell, if_pos h], ?_⟩
  obtain ⟨hr0, hr2, hc0, hc16⟩ : 0 ≤ row ∧ row < 2 ∧ 0 ≤ col ∧ col < 16 := of_decide_eq_true h
  have hcol : col.toNat < 16 := by omega
  obtain rfl | rfl : row = 0 ∨ row = 1 := by omega
  · have hbyte : ∀ n < 16, (setAddrByte (BitVec.ofNat 8 (n + rowBase 0))).toNat = 0x80 + n := by decide
    exact hbyte _ hcol
  · have hbyte : ∀ n < 16, (setAddrByte (BitVec.ofNat 8 (n + rowBase 1))).toNat = 0xC0 + n := by decide
    exact hbyte _ hcol

/-! ### The transient values of a write (R29) -/

/-- The frame value and RS beside a write are those of the byte written (R29). -/
def Slot.Formed (en : EnMask) (x : Slot) : Prop :=
  ∀ now, x.act = .write now → x.dp.v = enClear en now ∧ x.dp.rs = rsOf now

/-- Both writes of a pulse have its frame value and its RS beside them (R76). -/
theorem pulse_formed (p : Params) {dp : Datapath} (hv : isFrameValue dp.v = true) (hrs : rsOf dp.v = dp.rs) :
    ∀ x ∈ pulse p dp, x.Formed p.enMask := by
  have hclear : enClear p.enMask dp.v = dp.v := enClear_of_isFrameValue p.enMask hv
  simp [pulse, Slot.Formed, enClear_enSet, rsOf_enSet, hclear, hrs]

theorem byteSeq_formed (p : Params) (rs : Bool) (b : Byte) : ∀ x ∈ byteSeq p rs b, x.Formed p.enMask := by
  intro x hx
  rcases List.mem_append.mp hx with hx | hx
  · exact pulse_formed p (isFrameValue_withRs_hi rs b) (rsOf_withRs_hi rs b) x hx
  · exact pulse_formed p (isFrameValue_withRs_lo rs b) (rsOf_withRs_lo rs b) x hx

theorem waitSlot_formed (en : EnMask) (t : Nat) (dp : Datapath) : (waitSlot t dp).Formed en := nofun

theorem bringUpRaw_formed (p : Params) : ∀ x ∈ bringUpRaw p, x.Formed p.enMask := by
  have hinit : ∀ x ∈ rawInit8Seq p, x.Formed p.enMask := fun x hx => by
    rcases List.mem_append.mp hx with hx | hx
    · exact pulse_formed p (by decide) rfl x hx
    · rw [List.mem_singleton.mp hx]; exact waitSlot_formed _ _ _
  simp only [bringUpRaw, List.mem_cons, List.mem_append, List.mem_flatten, List.mem_replicate]
  rintro x (rfl | ⟨L, ⟨-, rfl⟩, hx⟩ | hx)
  · exact waitSlot_formed _ _ _
  · exact hinit x hx
  · exact pulse_formed p (by decide) rfl x hx

/-! ### Lists of bytes -/

/-- A list that sends bytes, one after another, with waits between them: what every display request sends, and the
bring-up once it is in 4-bit mode (R69, R82 to R87). -/
inductive SendsBytes (p : Params) : List Slot → Prop
  | nil : SendsBytes p []
  | wait (t : Nat) (dp : Datapath) {M : List Slot} (h : SendsBytes p M) : SendsBytes p (waitSlot t dp :: M)
  | byte (rs : Bool) (b : Byte) {M : List Slot} (h : SendsBytes p M) : SendsBytes p (byteSeq p rs b ++ M)

section SendsBytes
variable {p : Params} {L M : List Slot}

theorem SendsBytes.append (hL : SendsBytes p L) (hM : SendsBytes p M) : SendsBytes p (L ++ M) := by
  induction hL with
  | nil => exact hM
  | wait t dp _ ih => exact .wait t dp ih
  | byte rs b _ ih => rw [List.append_assoc]; exact .byte rs b ih

theorem byteSeq_sendsBytes (p : Params) (rs : Bool) (b : Byte) : SendsBytes p (byteSeq p rs b) := by
  simpa using SendsBytes.byte rs b .nil

theorem clearSeq_sendsBytes (p : Params) : SendsBytes p (clearSeq p) := .byte false _ (.wait _ _ .nil)

theorem homeSeq_sendsBytes (p : Params) : SendsBytes p (homeSeq p) := .byte false _ (.wait _ _ .nil)

theorem stringSeq_sendsBytes (p : Params) (cs : List Nat) : SendsBytes p (stringSeq p cs) := by
  induction cs with
  | nil => exact .nil
  | cons c cs ih => exact .byte true (charByte c) ih

theorem bringUpBytes_sendsBytes (p : Params) : SendsBytes p (bringUpBytes p) :=
  .byte false _ (.byte false _ ((clearSeq_sendsBytes p).append (homeSeq_sendsBytes p)))

theorem SendsBytes.no_connect (h : SendsBytes p L) : ∀ a ∈ L, a.act ≠ .connect := by
  induction h with
  | nil => simp
  | wait t dp _ ih => simpa [waitSlot] using ih
  | byte rs b _ ih => exact fun a ha => (List.mem_append.mp ha).elim (byteSeq_no_connect p rs b a) (ih a)

/-- The values of R29 while call number `k` of `L` is issued, a write of the byte whose two frames begin at calls `j`
and `j + 2`. -/
def SendsByteAt (en : EnMask) (L : List Action) (j k : Nat) (dp : Datapath) : Prop :=
  ∃ first second now, callAt j L = some (.write first) ∧ callAt (j + 2) L = some (.write second) ∧
    callAt k L = some (.write now) ∧ dp = .ofWrites en first second now

/-- Behind other calls. -/
theorem SendsByteAt.append_left {en : EnMask} {A B : List Action} {j k : Nat} {dp : Datapath}
    (h : SendsByteAt en B j k dp) : SendsByteAt en (A ++ B) (calls A + j) (calls A + k) dp := by
  unfold SendsByteAt at h ⊢
  simpa only [Nat.add_assoc, callAt_append_right] using h

/-- The writes of a list of bytes have their own frame value and RS beside them. -/
theorem SendsBytes.formed (h : SendsBytes p L) : ∀ x ∈ L, x.Formed p.enMask := by
  induction h with
  | nil => simp
  | wait t dp _ ih => exact List.forall_mem_cons.mpr ⟨waitSlot_formed _ t dp, ih⟩
  | byte rs b _ ih => exact fun x hx => (List.mem_append.mp hx).elim (byteSeq_formed p rs b x) (ih x)

theorem calls_byteSeq (p : Params) (rs : Bool) (b : Byte) : calls (acts (byteSeq p rs b)) = 4 := rfl

theorem byteSeq_dp_b (p : Params) (rs : Bool) (b : Byte) : ∀ x ∈ byteSeq p rs b, x.dp.b = b := by
  simp [byteSeq, pulse]

/-- The four calls of a byte have R29's values of that byte beside them. -/
theorem byteSeq_sendsByteAt (p : Params) (rs : Bool) (b : Byte) (M : List Slot) {k : Nat} {x : Slot} (hk : k < 4)
    (hx : (callSlots (byteSeq p rs b ++ M))[k]? = some x) :
    SendsByteAt p.enMask (acts (byteSeq p rs b ++ M)) 0 k x.dp := by
  have hlen : (callSlots (byteSeq p rs b)).length = 4 := length_callSlots _
  have hown : (callSlots (byteSeq p rs b))[k]? = some x := by
    rwa [callSlots_append, List.getElem?_append_left (by omega)] at hx
  obtain ⟨hmem, hcall⟩ := mem_of_callSlots hown
  obtain ⟨now, hnow⟩ := exists_write hcall (byteSeq_no_connect p rs b x hmem)
  obtain ⟨hv, hrs⟩ := byteSeq_formed p rs b x hmem now hnow
  refine ⟨enSet p.enMask (withRs rs (hi b)), enSet p.enMask (withRs rs (lo b)), now, rfl, rfl, ?_, ?_⟩
  · rw [callAt_acts, hx, Option.map_some, hnow]
  · rw [Datapath.ofWrites, nibbles_of_frames, ← hv, ← hrs, ← byteSeq_dp_b p rs b x hmem]

/-- Call number `k` of a list that sends bytes is a write of its byte number `k / 4`. -/
theorem SendsBytes.sendsByteAt (h : SendsBytes p L) {k : Nat} {x : Slot} (hx : (callSlots L)[k]? = some x) :
    SendsByteAt p.enMask (acts L) (4 * (k / 4)) k x.dp := by
  induction h generalizing k with
  | nil => simp [callSlots] at hx
  | @wait t dp M _ ih =>
    exact ih hx
  | @byte rs b M _ ih =>
    rcases Nat.lt_or_ge k 4 with hk | hk
    · rw [Nat.div_eq_of_lt hk]; exact byteSeq_sendsByteAt p rs b M hk hx
    · obtain ⟨n, rfl⟩ := Nat.exists_eq_add_of_le hk
      have hrest : (callSlots M)[n]? = some x := by
        rwa [callSlots_append, List.getElem?_append_right (by rw [length_callSlots, calls_byteSeq]; omega),
          length_callSlots, calls_byteSeq, Nat.add_sub_cancel_left] at hx
      have hdiv : 4 * ((4 + n) / 4) = 4 + 4 * (n / 4) := by omega
      rw [hdiv, acts_append, ← calls_byteSeq p rs b]
      exact (ih hrest).append_left

end SendsBytes

/-! ### A run that waits -/

/-- A list without `Connect` whose call number `k` never returns waits there, with the values beside that call. -/
theorem runFrom_waits {L : List Slot} {seq k : Nat} {s : State} (hL : ∀ a ∈ L, a.act ≠ .connect)
    (hk : k < calls (acts L)) (h : s.hangsAt k) :
    calls (beforeCall k (acts L)) = k ∧ ∃ x, (callSlots L)[k]? = some x ∧
      runFrom L seq s = .blocked (seq + (beforeCall k (acts L)).length) x.dp (s.went (beforeCall k (acts L))) := by
  obtain ⟨a, ha⟩ := exists_callAt hk
  obtain ⟨pre, x, post, hsplit, hpre, hcalls, hx, hrun⟩ := runFrom_blocked (q := seq) hL ha h
  obtain ⟨-, -, -, -, -, -, -, hcall⟩ := callAt_split ha
  refine ⟨hpre ▸ hcalls, x, ?_, hrun⟩
  have := callSlots_getElem?_calls pre post (hx ▸ hcall)
  rwa [← hsplit, hcalls] at this

/-! ### Display requests -/

/-- A display request accepted in `Ready` runs a list that sends bytes, and its actions are the ones printed for it
(R82 to R88). -/
theorem exec_of_displayActions {s : State} {i : Instr} {L : List Action} (hidle : s.inFlight = none)
    (hready : s.lifecycle = .ready) (hL : displayActions s.cfg i = some L) :
    ∃ list, SendsBytes s.cfg list ∧ acts list = L ∧ exec i s = .next (perform i list s) := by
  have haccept (j : Instr) (body : State → State) (hj : isDisplayRequest j = true) :
      accepting j body s = .next (body s) := accepting_of_permitted hidle (permitted_of_ready hj hready)
  cases i <;> simp only [displayActions, reduceCtorEq, Option.some.injEq, Option.ite_none_right_eq_some] at hL
  case clear => exact ⟨clearSeq s.cfg, clearSeq_sendsBytes _, (acts_clearSeq _).trans hL, haccept _ _ rfl⟩
  case home => exact ⟨homeSeq s.cfg, homeSeq_sendsBytes _, (acts_homeSeq _).trans hL, haccept _ _ rfl⟩
  case setCursor row col =>
    obtain ⟨hvalid, rfl⟩ := hL
    obtain ⟨b, hb, hnum⟩ := decodeCell_of_validCell hvalid
    refine ⟨commandSeq s.cfg b, byteSeq_sendsBytes _ _ _, ?_, ?_⟩
    · rw [acts_commandSeq, hnum, cursorActions]
    · simp only [exec, execSetCursor]; rw [haccept _ _ rfl, hb]
  case writeChar c =>
    obtain ⟨hc, rfl⟩ := hL
    refine ⟨charSeq s.cfg c, byteSeq_sendsBytes _ _ _, acts_charSeq _ _, ?_⟩
    exact (refusingCodePoints_of_all (by simp [hc])).trans (haccept _ _ rfl)
  case writeString cs =>
    obtain ⟨hcs, rfl⟩ := hL
    refine ⟨stringSeq s.cfg cs, stringSeq_sendsBytes _ _, acts_stringSeq _ _, ?_⟩
    exact (refusingCodePoints_of_all hcs).trans (haccept _ _ rfl)

/-- Settles O11: the list of a display request sends bytes, so that the call it waits at has R29's values of its byte
beside it. -/
theorem unansweredDisplayRequestStaysInFlight : Obligations.UnansweredDisplayRequestStaysInFlight := by
  intro s i L k hidle hready hL hk hhang
  obtain ⟨list, hbytes, rfl, hexec⟩ := exec_of_displayActions hidle hready hL
  obtain ⟨hcalls, x, hx, hrun⟩ := runFrom_waits (seq := 0) hbytes.no_connect hk hhang
  obtain ⟨first, second, now, hfirst, hsecond, hnow, hdp⟩ := hbytes.sendsByteAt hx
  refine ⟨list, first, second, now, rfl, hfirst, hsecond, hnow, ?_⟩
  rw [hexec, perform, hrun, hdp, Nat.zero_add, State.went, hcalls]
  rfl

/-! ### The bring-up -/

/-- The actions of R70 after event 0. -/
theorem initializeActions_eq (p : Params) :
    initializeActions p = .connect :: acts (bringUpRaw p ++ bringUpBytes p) := by
  rw [← acts_bringUpSeq, bringUpSeq_eq, acts_cons]

/-- The bring-up makes 24 calls after its `Connect` (R70). -/
theorem calls_bringUpRest (p : Params) : calls (acts (bringUpRaw p ++ bringUpBytes p)) = 24 := rfl

/-- The bytes of the bring-up begin at its call 9 (R70). -/
theorem calls_connect_bringUpRaw (p : Params) : calls (.connect :: acts (bringUpRaw p)) = 9 := rfl

theorem bringUpRest_formed (p : Params) : ∀ x ∈ bringUpRaw p ++ bringUpBytes p, x.Formed p.enMask :=
  fun x hx => (List.mem_append.mp hx).elim (bringUpRaw_formed p x) ((bringUpBytes_sendsBytes p).formed x)

/-- Call number `k + 1` of the bring-up is a write with its own frame value and RS beside it (R29, R59). -/
theorem bringUp_call_formed {p : Params} {k : Nat} {x : Slot}
    (hx : (callSlots (bringUpRaw p ++ bringUpBytes p))[k]? = some x) :
    ∃ now, callAt (k + 1) (initializeActions p) = some (.write now) ∧ x.dp.v = enClear p.enMask now ∧
      x.dp.rs = rsOf now := by
  obtain ⟨hmem, hcall⟩ := mem_of_callSlots hx
  obtain ⟨now, hnow⟩ := exists_write hcall (bringUpRest_no_connect p x hmem)
  refine ⟨now, ?_, bringUpRest_formed p x hmem now hnow⟩
  have hnext : callAt (k + 1) (.connect :: acts (bringUpRaw p ++ bringUpBytes p)) =
    callAt k (acts (bringUpRaw p ++ bringUpBytes p)) := rfl
  rw [initializeActions_eq, hnext, callAt_acts, hx, Option.map_some, hnow]

/-- From call 9 on the bring-up sends bytes (R69 steps 5 to 8). -/
theorem bringUp_sendsByteAt {p : Params} {n : Nat} {x : Slot}
    (hx : (callSlots (bringUpRaw p ++ bringUpBytes p))[8 + n]? = some x) :
    SendsByteAt p.enMask (initializeActions p) (9 + 4 * (n / 4)) (9 + n) x.dp := by
  have hlen : (callSlots (bringUpRaw p)).length = 8 := length_callSlots _
  have hbytes : (callSlots (bringUpBytes p))[n]? = some x := by
    rwa [callSlots_append, List.getElem?_append_right (by omega), hlen, Nat.add_sub_cancel_left] at hx
  rw [initializeActions_eq, acts_append, ← List.cons_append, ← calls_connect_bringUpRaw p]
  exact ((bringUpBytes_sendsBytes p).sendsByteAt hbytes).append_left

/-- `s` with its bring-up accepted (R69: `state <- Bootstrapping`). -/
def State.booting (s : State) : State := { s with lifecycle := .bootstrapping }

/-- In `NotStarted` the bring-up is accepted and runs its list (R68, R69). -/
theorem exec_initialize {s : State} (hidle : s.inFlight = none) (hstart : s.lifecycle = .notStarted) :
    exec .initializeReq s = .next (perform .initializeReq (bringUpSeq s.cfg) s.booting) := by
  rw [exec, execInitialize, accepting_of_permitted hidle (by simp [permitted, hstart])]
  rfl

/-- `s` after its `Connect` answered `ok(h)` (R35). -/
def State.connected (s : State) (h : Handle) : State :=
  { s with answers := s.answers.drop 1, conn := some h }.emit (.connect s.addr s.bus (.ok h))

/-- A bring-up whose `Connect` is answered goes on over the handle it was given (R69). -/
theorem runFrom_bringUpSeq_connected {s : State} {h : Handle} (p : Params) (ha : s.answerAt 0 = some (.ok h)) :
    runFrom (bringUpSeq p) 0 s = runFrom (bringUpRaw p ++ bringUpBytes p) 1 (s.connected h) := by
  rw [bringUpSeq_eq, runFrom, State.issue_connect_ok ha]
  rfl

/-- A bring-up whose `Connect` is not answered waits there (R95). -/
theorem runFrom_bringUpSeq_waiting {s : State} (p : Params) (ha : s.answerAt 0 = none) :
    runFrom (bringUpSeq p) 0 s = .blocked 0 noData s := by
  rw [bringUpSeq_eq, runFrom, State.issue_call_blocked rfl ha]

theorem State.connected_hangsAt {s : State} {k : Nat} (h : Handle) (hhang : s.hangsAt (k + 1)) :
    (s.connected h).hangsAt k := by
  obtain ⟨hok, hnone⟩ := hhang
  have hat (n : Nat) : (s.connected h).answerAt n = s.answerAt (1 + n) :=
    State.answerAt_of_drop (s := s) (t := s.connected h) rfl rfl n
  refine ⟨State.okCalls_of_drop (s := s) (n := 1) rfl rfl (by rwa [Nat.add_comm]), ?_⟩
  rw [hat, Nat.add_comm, hnone]

/-- The handle stands in the event of a `Connect` only (R13). -/
theorem State.map_okEvent_of_no_connect (s : State) (h h' : Handle) {L : List Action}
    (hL : ∀ a ∈ L, a ≠ .connect) : L.map (s.okEvent h) = L.map (s.okEvent h') := by
  refine List.map_congr_left fun a ha => ?_
  cases a with
  | connect => exact absurd rfl (hL _ ha)
  | write v => rfl
  | delay t => rfl

/-- What stands before a call of a list is where the list begins. -/
theorem beforeCall_isPrefix (k : Nat) (L : List Action) : beforeCall k L <+: L := by
  fun_induction beforeCall k L with
  | case1 => exact List.nil_prefix
  | case2 _ _ _ ih => exact (List.prefix_cons_inj _).mpr ih
  | case3 => exact List.nil_prefix
  | case4 => exact List.nil_prefix
  | case5 _ _ ih => exact (List.prefix_cons_inj _).mpr ih
  | case6 _ _ _ ih => exact (List.prefix_cons_inj _).mpr ih

/-- After `Connect` and the actions `L` have completed. -/
theorem State.connected_went (s : State) (h : Handle) {L : List Action} (hL : ∀ a ∈ L, a ≠ .connect) :
    (s.connected h).went L =
      { s with conn := some h, answers := s.answers.drop (calls L + 1),
               trace := s.trace ++ (.connect :: L).map (s.okEvent h),
               lcd := Lcd.ran s.cfg.enMask s.lcd (.connect :: L) } := by
  have hevents : L.map ((s.connected h).okEvent 0) = L.map (s.okEvent h) := by
    rw [State.okEvent_congr (s := s) (t := s.connected h) rfl rfl, s.map_okEvent_of_no_connect 0 h hL]
  rw [State.went, hevents]
  simp [State.connected, State.emit, State.okEvent, Lcd.ran, Nat.add_comm]

/-- Settles O34: `Connect` waits with no value formed; a later call is one of a list without `Connect`, whose writes
have R29's values beside them. -/
theorem unansweredBringUpIsBootstrapping : Obligations.UnansweredBringUpIsBootstrapping := by
  intro s k c hidle hstart hk hhang hfirst
  cases k with
  | zero =>
    refine ⟨bringUpSeq s.cfg, noData, acts_bringUpSeq _, ?_, nofun, nofun⟩
    rw [exec_initialize hidle hstart, perform, runFrom_bringUpSeq_waiting (s := s.booting) _ hhang.2]
    simp [conclude, State.booting, initializeActions_eq, beforeCall, Lcd.ran]
  | succ k =>
    have hok : s.booting.answerAt 0 = some (.ok c) := hfirst.resolve_left (Nat.succ_ne_zero k)
    have hno := bringUpRest_no_connect s.cfg
    obtain ⟨hcalls, x, hx, hrun⟩ := runFrom_waits (seq := 1) hno (by rw [calls_bringUpRest]; omega)
      (State.connected_hangsAt (s := s.booting) c hhang)
    have hacts : ∀ a ∈ acts (bringUpRaw s.cfg ++ bringUpBytes s.cfg), a ≠ .connect := List.forall_mem_map.mpr hno
    have hbefore : ∀ a ∈ beforeCall k (acts (bringUpRaw s.cfg ++ bringUpBytes s.cfg)), a ≠ .connect :=
      fun a ha => hacts a ((beforeCall_isPrefix k _).subset ha)
    refine ⟨bringUpSeq s.cfg, x.dp, acts_bringUpSeq _, ?_, fun _ => bringUp_call_formed hx, fun h9 => ?_⟩
    · have hsplit : beforeCall (k + 1) (initializeActions s.cfg) =
          .connect :: beforeCall k (acts (bringUpRaw s.cfg ++ bringUpBytes s.cfg)) := by
        rw [initializeActions_eq, beforeCall]
      rw [exec_initialize hidle hstart, perform, runFrom_bringUpSeq_connected _ hok, hrun,
        State.connected_went _ c hbefore, hcalls, hsplit, List.length_cons, Nat.add_comm 1]
      rfl
    · obtain ⟨n, rfl⟩ := Nat.exists_eq_add_of_le (show 8 ≤ k by omega)
      have hindex : 8 + n + 1 = 9 + n := by omega
      rw [hindex, Nat.add_sub_cancel_left]
      exact bringUp_sendsByteAt hx

end Sys2Proof.Machine

/-! PROOFS. Family 20_memory.md: the request port (R48, R50, R65), and a transport that answers late or never (R40,
R95). -/

namespace Sys2Proof.Machine

/-! ### What a step does, by what is in flight and at the port -/

section Step
variable {s : State}

theorem step_of_inFlight {f : InFlight} (hf : s.inFlight = some f) (hport : overlaps s.port = false) :
    step s = .next (resume f s) := by
  simp [step, hf, hport]

theorem step_of_inFlight_overlaps (hf : s.inFlight ≠ none) (hport : overlaps s.port = true) :
    step s = .refused .concurrentRequest := by
  obtain ⟨f, hf⟩ := Option.ne_none_iff_exists'.mp hf
  simp [step, hf, hport]

theorem step_of_idle_overlaps {q : Presented} {rest : List Presented} (hf : s.inFlight = none)
    (hport : s.port = q :: rest) (hrest : overlaps rest = true) : step s = .refused .concurrentRequest := by
  simp [step, State.fetch, hf, hport, hrest]

theorem step_of_decode {q : Presented} {rest : List Presented} {i : Instr} (hf : s.inFlight = none)
    (hport : s.port = q :: rest) (hrest : overlaps rest = false) (hdec : decode s.cfg.enMask q.item = .instr i) :
    step s = exec i { s with port := rest } := by
  simp [step, State.fetch, hf, hport, hrest, hdec]

/-- No instruction starts while a request is in flight (R50). -/
theorem exec_of_inFlight {i : Instr} (hi : i.wellFormed = true) (hf : s.inFlight ≠ none) :
    exec i s = .refused .concurrentRequest := by
  cases i
  case writeChar c =>
    exact (refusingCodePoints_of_all (by simpa [Instr.wellFormed] using hi)).trans (accepting_in_flight hf)
  case writeString cs => exact (refusingCodePoints_of_all hi).trans (accepting_in_flight hf)
  all_goals
    simp only [exec]
    exact accepting_in_flight hf

end Step

/-- Settles O8: with the port's oldest item decoded, no other branch of the step is open. -/
theorem stepExecutesTheDecodedInstruction : Obligations.StepExecutesTheDecodedInstruction :=
  fun _ _ _ _ hf hport hrest hdec => step_of_decode hf hport hrest hdec

/-- Settles O7: behind a request in flight, behind the one about to be executed, and as an instruction. -/
theorem overlappingRequestIsRefused : Obligations.OverlappingRequestIsRefused := by
  refine fun s => ⟨fun q rest hf hport hearly => ?_, fun p q rest hf hport hearly => ?_, fun i => exec_of_inFlight⟩
  · exact step_of_inFlight_overlaps hf (by rw [hport]; exact hearly)
  · exact step_of_idle_overlaps hf hport hearly

/-! ### A transport that never answers -/

/-- A list whose next action is a call the transport does not answer stops there at once (R95). -/
theorem runFrom_drop_of_unanswered {s : State} {list : List Slot} {seq : Nat} {a : Slot} (ha : list[seq]? = some a)
    (hcall : a.act.isCall = true) (hnever : s.answerAt 0 = none) :
    runFrom (list.drop seq) seq s = .blocked seq a.dp s := by
  obtain ⟨hlt, rfl⟩ := List.getElem?_eq_some_iff.mp ha
  rw [List.drop_eq_getElem_cons hlt, runFrom, State.issue_call_blocked hcall hnever]

/-- Settles O10: the request in flight stops again at the call it waits at, with the values it waits with. -/
theorem unansweredCallBlocksForever : Obligations.UnansweredCallBlocksForever := by
  intro s f hf hlegal hnever hport
  obtain ⟨⟨a, ha, hcall, hdp⟩, -, -⟩ := hlegal
  have hrun : runFrom (f.list.drop f.seq) f.seq { s with inFlight := none } = .blocked f.seq a.dp _ :=
    runFrom_drop_of_unanswered ha hcall hnever
  rw [step_of_inFlight hf hport, resume, hrun, conclude, ← hdp, ← hf]

/-! ### A transport that answers late -/

/-- `s` on a transport that has the answers of `s` and, after them, those that come late. -/
def State.withLate (s : State) (late : List Answer) (d : Option Answer) : State :=
  s.answering (s.answers ++ late) d

section Late
variable {s t : State} {late : List Answer} {d : Option Answer}

/-- With nothing left to answer, the late answers are the next. -/
theorem State.withLate_of_unanswered (h : s.answerAt 0 = none) : s.withLate late d = s.answering late d := by
  have hnil : s.answers = [] := by
    cases ha : s.answers with
    | nil => rfl
    | cons r rest => simp [State.answerAt, ha] at h
  rw [State.withLate, hnil, List.nil_append]

theorem State.takeAnswer_withLate {r : Answer} (hs : s.standing = none) (h : s.takeAnswer = some (r, t)) :
    (s.withLate late d).takeAnswer = some (r, t.withLate late d) := by
  cases ha : s.answers with
  | nil => simp [State.takeAnswer, ha, hs] at h
  | cons r' rest =>
    simp only [State.takeAnswer, ha, Option.some.injEq, Prod.mk.injEq] at h
    obtain ⟨rfl, rfl⟩ := h
    simp [State.takeAnswer, State.withLate, State.answering, ha]

/-- An action that completes does so whatever is answered late. -/
theorem State.issue_withLate {a : Action} (hs : s.standing = none) (h : s.issue a = .ok t) :
    (s.withLate late d).issue a = .ok (t.withLate late d) := by
  cases a with
  | delay n => cases h; rfl
  | connect =>
    simp only [State.issue, State.issueConnect] at h ⊢
    rcases ha : s.takeAnswer with _ | ⟨c | e, u⟩ <;> rw [ha] at h <;> cases h
    rw [State.takeAnswer_withLate hs ha]
    rfl
  | write v =>
    simp only [State.issue, State.issueWrite] at h ⊢
    rcases ha : s.takeAnswer with _ | ⟨c | e, u⟩ <;> rw [ha] at h <;> cases h
    rw [State.takeAnswer_withLate hs ha]
    rfl

/-- A list that runs to its end does so whatever is answered late. -/
theorem runFrom_withLate {L : List Slot} {q : Nat} (hs : s.standing = none) (h : runFrom L q s = .done t) :
    runFrom L q (s.withLate late d) = .done (t.withLate late d) := by
  induction L generalizing q s with
  | nil => cases h; rfl
  | cons a rest ih =>
    cases hi : s.issue a.act with
    | ok u =>
      have hu : u.standing = none := (State.issue_sameBlock (.inl hi)).standing.trans hs
      simp only [runFrom, hi, State.issue_withLate hs hi] at h ⊢
      exact ih hu h
    | err e u => simp [runFrom, hi] at h
    | blocked => simp [runFrom, hi] at h

/-- A run that waits at a call goes on from that call, once the answers come, as it would have run with them at once. -/
theorem runFrom_blocked_withLate {list : List Slot} {seq k : Nat} {dp : Datapath} (hs : s.standing = none)
    (h : runFrom (list.drop seq) seq s = .blocked k dp t) :
    runFrom (list.drop seq) seq (s.withLate late d) = runFrom (list.drop k) k (t.answering late d) := by
  obtain ⟨pre, x, post, hlist, rfl, -, -, hnever, hdone⟩ := runFrom_blocked_inv h
  have hrest : list.drop (seq + pre.length) = x :: post := by
    rw [← List.drop_drop, hlist, List.drop_left]
  rw [hlist, runFrom_append, runFrom_withLate hs hdone, hrest, State.withLate_of_unanswered hnever]

/-- A request that waited is resumed from its list. -/
theorem resume_answering {req : Instr} {list : List Slot} {k : Nat} {dp : Datapath} (hidle : s.inFlight = none) :
    resume ⟨req, list, k, dp⟩ ({ s with inFlight := some ⟨req, list, k, dp⟩ }.answering late d) =
      conclude req list (runFrom (list.drop k) k (s.answering late d)) := by
  cases s; cases hidle; rfl

/-- A request that waits goes on, once the answers come, to where it would have come with them at once (R40). -/
theorem step_conclude_answering {req : Instr} {list : List Slot} {seq : Nat} (hidle : s.inFlight = none)
    (hs : s.standing = none) (hport : overlaps s.port = false)
    (hwaits : (conclude req list (runFrom (list.drop seq) seq s)).inFlight ≠ none) :
    step ((conclude req list (runFrom (list.drop seq) seq s)).answering late d) =
      .next (conclude req list (runFrom (list.drop seq) seq (s.withLate late d))) := by
  have hrun : s.SameBlock (runFrom (list.drop seq) seq s).state := runFrom_sameBlock _ _ _
  obtain ⟨u, hend, heq⟩ | ⟨e, u, hend, heq⟩ | ⟨k, dp, u, hend, heq⟩ :=
    conclude_cases req list (runFrom (list.drop seq) seq s) <;> rw [heq] at hwaits ⊢ <;> rw [hend] at hrun
  · exact absurd (by simpa using hrun.inFlight.trans hidle) hwaits
  · exact absurd (by simpa using hrun.inFlight.trans hidle) hwaits
  · have hu : u.inFlight = none := hrun.inFlight.trans hidle
    have hstep : step ({ u with inFlight := some ⟨req, list, k, dp⟩ }.answering late d) = .next (resume _ _) :=
      step_of_inFlight rfl ((congrArg overlaps hrun.port).trans hport)
    rw [hstep, resume_answering hu, runFrom_blocked_withLate hs hend]

/-! ### Every instruction goes on after late answers -/

/-- The body of a request, run from a state with nothing in flight, goes on after late answers to what it does with them
at once. -/
def BodyGoesOn (body : State → State) : Prop :=
  ∀ s late d, s.inFlight = none → s.standing = none → overlaps s.port = false → (body s).inFlight ≠ none →
    step ((body s).answering late d) = .next (body (s.withLate late d))

/-- A meaning that leaves its request waiting goes on after late answers to what it does with them at once (R40). -/
def MeaningGoesOn (meaning : State → Host.Outcome State Fault Refusal) : Prop :=
  ∀ s t late d, s.standing = none → overlaps s.port = false → t.inFlight ≠ none → meaning s = .next t →
    step (t.answering late d) = meaning (s.withLate late d)

/-- A list that does not depend on the transport. -/
theorem bodyGoesOn_perform {req : Instr} {list : State → List Slot}
    (hlist : ∀ s late d, list (s.withLate late d) = list s) : BodyGoesOn (fun s => perform req (list s) s) := by
  intro s late d hidle hs hport hwaits
  show _ = Host.Outcome.next (perform req (list (s.withLate late d)) (s.withLate late d))
  rw [hlist]
  exact step_conclude_answering (list := list s) (seq := 0) hidle hs hport hwaits

/-- A response leaves nothing in flight. -/
theorem bodyGoesOn_respond (r : State → Response) : BodyGoesOn (fun s => s.respond (r s)) :=
  fun _ _ _ hidle _ _ hwaits => absurd hidle hwaits

/-- The guard does not depend on the transport either, and an error leaves nothing in flight. -/
theorem meaningGoesOn_accepting {i : Instr} {body : State → State} (hbody : BodyGoesOn body) :
    MeaningGoesOn (accepting i body) := by
  intro s t late d hs hport hwaits h
  obtain ⟨hidle, ⟨hp, rfl⟩ | ⟨-, rfl⟩⟩ := accepting_next h
  · have hp' : permitted i (s.withLate late d) = true := (permitted_congr (s := s) rfl rfl i).trans hp
    rw [accepting_of_permitted (s := s.withLate late d) hidle hp']
    exact hbody s late d hidle hs hport hwaits
  · exact absurd hidle hwaits

theorem meaningGoesOn_refusingCodePoints {cs : List Nat} {meaning : State → Host.Outcome State Fault Refusal}
    (hm : MeaningGoesOn meaning) : MeaningGoesOn (fun s => refusingCodePoints cs (meaning s)) := by
  intro s t late d hs hport hwaits h
  obtain ⟨h, hcs⟩ := refusingCodePoints_next h
  simpa only [refusingCodePoints_of_all hcs] using hm s t late d hs hport hwaits h

/-- No instruction looks at the transport before it runs its list: `setCursor` looks at its cell, `shutdown` at the
lifecycle and its actions. -/
theorem exec_meaningGoesOn (i : Instr) : MeaningGoesOn (exec i) := by
  cases i
  case initializeReq =>
    exact meaningGoesOn_accepting fun s => bodyGoesOn_perform (list := fun s => bringUpSeq s.cfg)
      (fun _ _ _ => rfl) { s with lifecycle := .bootstrapping }
  case shutdown =>
    refine meaningGoesOn_accepting fun s late d => ?_
    by_cases hacts : s.lifecycle = .ready ∧ s.cfg.shutdownActions ≠ []
    · have hacts' : (s.withLate late d).lifecycle = .ready ∧ (s.withLate late d).cfg.shutdownActions ≠ [] := hacts
      simp only [if_pos hacts, if_pos hacts']
      exact bodyGoesOn_perform (list := fun s => shutdownSeq s.cfg) (fun _ _ _ => rfl) s late d
    · simp only [if_neg hacts]
      exact fun hidle _ _ hwaits => absurd hidle hwaits
  case identity => exact meaningGoesOn_accepting (bodyGoesOn_respond _)
  case setCursor row col =>
    refine meaningGoesOn_accepting ?_
    cases decodeCell row col with
    | none => exact bodyGoesOn_respond _
    | some b => exact bodyGoesOn_perform fun _ _ _ => rfl
  case writeChar c =>
    exact meaningGoesOn_refusingCodePoints (meaningGoesOn_accepting (bodyGoesOn_perform fun _ _ _ => rfl))
  case writeString c =>
    exact meaningGoesOn_refusingCodePoints (meaningGoesOn_accepting (bodyGoesOn_perform fun _ _ _ => rfl))
  all_goals exact meaningGoesOn_accepting (bodyGoesOn_perform fun _ _ _ => rfl)

/-- Settles O12: an instruction by its meaning, a request in flight by its list. -/
theorem lateAnswersChangeNothing : Obligations.LateAnswersChangeNothing := by
  intro s t late d hs hport hwaits
  refine ⟨fun i hexec => exec_meaningGoesOn i s t late d hs hport hwaits hexec, fun hf hstep => ?_⟩
  obtain ⟨f, hf⟩ := Option.ne_none_iff_exists'.mp hf
  rw [step_of_inFlight hf hport] at hstep
  cases hstep
  rw [step_of_inFlight (s := s.answering (s.answers ++ late) d) hf hport]
  exact step_conclude_answering (s := { s with inFlight := none }) rfl hs hport hwaits

end Late
end Sys2Proof.Machine

/-! PROOFS. Family 20_memory.md: the one target of every call, the one `Connect` of a lifetime, and writes only over a
connection (R34 to R36, R48); and that a delay completes (R38). -/

namespace Sys2Proof.Machine

/-! ### The trace of an action and of a list -/

/-- An action that completed leaves its event, a `Connect` with the handle it was answered (R13). -/
theorem State.issue_ok_trace {s t : State} {a : Action} (h : s.issue a = .ok t) :
    ∃ c, t.trace = s.trace ++ [s.okEvent c a] := by
  cases a with
  | delay d => cases h; exact ⟨0, rfl⟩
  | connect =>
    rcases hn : s.answerAt 0 with _ | c | e
    · simp [State.issue_call_blocked (a := .connect) rfl hn] at h
    · rw [State.issue_connect_ok hn] at h; cases h; exact ⟨c, rfl⟩
    · simp [State.issue_connect_err hn] at h
  | write v =>
    rcases hn : s.answerAt 0 with _ | c | e
    · simp [State.issue_call_blocked (a := .write v) rfl hn] at h
    · rw [State.issue_write_ok v hn] at h; cases h; exact ⟨c, rfl⟩
    · simp [State.issue_write_err v hn] at h

/-- An action that failed leaves its event with the transport's error (R13). -/
theorem State.issue_err_trace {s t : State} {a : Action} {e : BusError} (h : s.issue a = .err e t) :
    t.trace = s.trace ++ [s.errEvent e a] := by
  cases a with
  | delay d => cases h
  | connect =>
    rcases hn : s.answerAt 0 with _ | c | e'
    · simp [State.issue_call_blocked (a := .connect) rfl hn] at h
    · simp [State.issue_connect_ok hn] at h
    · rw [State.issue_connect_err hn] at h; cases h; rfl
  | write v =>
    rcases hn : s.answerAt 0 with _ | c | e'
    · simp [State.issue_call_blocked (a := .write v) rfl hn] at h
    · simp [State.issue_write_ok v hn] at h
    · rw [State.issue_write_err v hn] at h; cases h; rfl

/-- The end of a list adds at most one entry to the trace of its run, and that is a response (R12). -/
theorem conclude_trace (req : Instr) (list : List Slot) (r : RunEnd) :
    (conclude req list r).trace = r.state.trace ∨
      ∃ resp, (conclude req list r).trace = r.state.trace ++ [.response resp] := by
  obtain ⟨u, rfl, heq⟩ | ⟨e, u, rfl, heq⟩ | ⟨k, dp, u, rfl, heq⟩ := conclude_cases req list r <;> rw [heq]
  · exact .inr ⟨.ok, by simp⟩
  · exact .inr ⟨.err (.transportError e), by simp⟩
  · exact .inl rfl

/-- The end of a list leaves the connection of its run. -/
theorem conclude_conn_eq (req : Instr) (list : List Slot) (r : RunEnd) :
    (conclude req list r).conn = r.state.conn := by
  obtain ⟨u, rfl, heq⟩ | ⟨e, u, rfl, heq⟩ | ⟨k, dp, u, rfl, heq⟩ := conclude_cases req list r <;> rw [heq] <;> simp

/-! ### The one target -/

/-- From `s` to `t` the trace only grew, by entries that go to the target of `s` (R34). -/
def State.AddsOnTarget (s t : State) : Prop :=
  ∃ ev, t.trace = s.trace ++ ev ∧ ∀ e ∈ ev, e.onTarget s.addr s.bus = true

theorem State.addsOnTarget_respond (s : State) (r : Response) : s.AddsOnTarget (s.respond r) :=
  ⟨[.response r], State.respond_trace s r, by simp [Event.onTarget]⟩

/-- However a list ends, its events went to the one target. -/
theorem State.addsOnTarget_conclude_runFrom (req : Instr) (list rest : List Slot) (seq : Nat) (s : State) :
    s.AddsOnTarget (conclude req list (runFrom rest seq s)) := by
  obtain ⟨ev, htrace, htarget, -⟩ := (runFrom_sameBlock rest seq s).trace
  obtain heq | ⟨r, heq⟩ := conclude_trace req list (runFrom rest seq s)
  · exact ⟨ev, heq.trans htrace, htarget⟩
  · refine ⟨ev ++ [.response r], by rw [heq, htrace, List.append_assoc], fun e he => ?_⟩
    obtain he | he := List.mem_append.mp he
    · exact htarget e he
    · rw [List.mem_singleton.mp he]; rfl

/-- Settles O47: a step waits, responds, or runs a list, all of whose events go to the block's own target. -/
theorem everyCallGoesToTheOneTarget : Obligations.EveryCallGoesToTheOneTarget := by
  intro s t hstep
  show s.AddsOnTarget t
  obtain ⟨f, -, rfl⟩ | ⟨-, rfl⟩ | ⟨-, q, rest, i, -, -, hexec⟩ := step_cases hstep
  · exact State.addsOnTarget_conclude_runFrom _ _ _ _ { s with inFlight := none }
  · exact ⟨[], by simp⟩
  · obtain ⟨-, ⟨r, rfl, -⟩ | ⟨-, -, rfl⟩ | ⟨-, -, -, L, -, rfl⟩⟩ := exec_cases hexec
    · exact State.addsOnTarget_respond { s with port := rest } r
    · exact State.addsOnTarget_conclude_runFrom _ _ _ _ { s with port := rest, lifecycle := .bootstrapping }
    · exact State.addsOnTarget_conclude_runFrom _ _ _ _ { s with port := rest }

/-! ### Counting `Connect` -/

/-- Is this entry the event of a `Connect`? -/
def Event.isConnect : Event → Bool
  | .connect _ _ _ => true
  | .write _ _ _ _ => false
  | .delay _ => false
  | .response _ => false

/-- How many times `Connect` was issued. -/
def State.connects (s : State) : Nat := s.trace.countP Event.isConnect

theorem State.connects_congr {s t : State} (h : t.trace = s.trace) : t.connects = s.connects :=
  congrArg (List.countP Event.isConnect) h

theorem State.connects_of_append {s t : State} {ev : List Event} (h : t.trace = s.trace ++ ev) :
    t.connects = s.connects + ev.countP Event.isConnect := by
  rw [State.connects, h, List.countP_append, State.connects]

@[simp] theorem State.connects_respond (s : State) (r : Response) : (s.respond r).connects = s.connects :=
  State.connects_of_append (State.respond_trace s r)

theorem conclude_connects (req : Instr) (list : List Slot) (r : RunEnd) :
    (conclude req list r).connects = r.state.connects := by
  obtain heq | ⟨resp, heq⟩ := conclude_trace req list r
  · simp [State.connects, heq]
  · exact State.connects_of_append heq

/-- An action counts as a `Connect` exactly when it is one, however it is answered. -/
theorem State.issue_connects {s t : State} {a : Action} (h : s.issue a = .ok t ∨ ∃ e, s.issue a = .err e t) :
    t.connects = s.connects + if a = .connect then 1 else 0 := by
  obtain h | ⟨e, h⟩ := h
  · obtain ⟨c, htrace⟩ := State.issue_ok_trace h
    rw [State.connects_of_append htrace]
    cases a <;> rfl
  · rw [State.connects_of_append (State.issue_err_trace h)]
    cases a <;> rfl

theorem runFrom_connects_of_no_connect (L : List Slot) (q : Nat) (s : State) (hL : ∀ a ∈ L, a.act ≠ .connect) :
    (runFrom L q s).state.connects = s.connects := by
  induction L generalizing q s with
  | nil => rfl
  | cons a rest ih =>
    have ha : a.act ≠ .connect := hL a (by simp)
    unfold runFrom
    cases h : s.issue a.act with
    | ok t =>
      have hrest : (runFrom rest (q + 1) t).state.connects = t.connects := ih _ _ fun b hb => hL b (by simp [hb])
      exact hrest.trans (by simpa [ha] using State.issue_connects (.inl h))
    | err e t => simpa [ha] using State.issue_connects (.inr ⟨e, h⟩)
    | blocked => rfl

/-- In a legal state the bound of `connectedOnce` says: one `Connect`, and none while there is no connection, but for
the one that failed (R35, R71). -/
theorem State.Inv.connectedOnce_iff {s : State} (h : s.Inv) :
    s.connectedOnce ↔ s.connects ≤ 1 ∧ (s.conn = none → s.lifecycle ≠ .failed → s.connects = 0) := by
  obtain ⟨hstart, hready, hboot, hlegal⟩ := h
  cases hl : s.lifecycle with
  | notStarted =>
    have hbound : s.connectedOnce ↔ s.connects ≤ 0 := by rw [State.connectedOnce]; simp only [hl]; rfl
    simp only [hbound, hstart hl, ne_eq, reduceCtorEq, not_false_eq_true, forall_const]
    omega
  | bootstrapping =>
    obtain ⟨f, hf, hreq⟩ := hboot hl
    obtain ⟨-, hinit, -⟩ := hlegal f hf
    obtain ⟨-, -, hseq⟩ := hinit hreq
    have hbound : s.connectedOnce ↔ s.connects ≤ min f.seq 1 := by rw [State.connectedOnce]; simp only [hl, hf]; rfl
    simp only [hbound, ← hseq, ne_eq, reduceCtorEq, not_false_eq_true, forall_const]
    omega
  | ready =>
    have hbound : s.connectedOnce ↔ s.connects ≤ 1 := by rw [State.connectedOnce]; simp only [hl]; rfl
    simp [hbound, hready hl]
  | failed =>
    have hbound : s.connectedOnce ↔ s.connects ≤ 1 := by rw [State.connectedOnce]; simp only [hl]; rfl
    simp [hbound]

/-! ### What a legal step takes up -/

/-- `RespondsOrRuns` with the trace: the legal run begins with the connection and the trace of `s`, and `s` is not
`Failed`. -/
def RespondsOrRunsOn (s t : State) : Prop :=
  (∃ r, t = s.respond r) ∨
  (∃ s₀ req list seq, s₀.RunsLegally req list seq ∧ s₀.conn = s.conn ∧ s₀.trace = s.trace ∧ s.lifecycle ≠ .failed ∧
    t = conclude req list (runFrom (list.drop seq) seq s₀))

theorem exec_respondsOrRunsOn {i : Instr} {s t : State} (h : s.Inv) (hexec : exec i s = .next t) :
    RespondsOrRunsOn s t := by
  have ⟨hstart, hconn, _, _⟩ := h
  obtain ⟨hidle, ⟨r, rfl, -⟩ | ⟨rfl, hl, rfl⟩ | ⟨hne, hperm, hwhen, L, hno, rfl⟩⟩ := exec_cases hexec
  · exact .inl ⟨r, rfl⟩
  · have hrun : { s with lifecycle := .bootstrapping }.RunsLegally .initializeReq (bringUpSeq s.cfg) 0 :=
      ⟨hidle, fun _ => ⟨rfl, rfl, iff_of_true rfl (hstart hl)⟩, fun hne => absurd rfl hne⟩
    exact .inr ⟨_, _, _, 0, hrun, rfl, rfl, by simp [hl], rfl⟩
  · have hready : s.lifecycle = .ready := hwhen.elim id (h.mayWrite_iff_ready hidle).mp
    have hrun : s.RunsLegally i L 0 :=
      ⟨hidle, fun hi => absurd hi hne, fun _ => ⟨hready, hconn hready, hperm, hno⟩⟩
    exact .inr ⟨s, i, L, 0, hrun, rfl, rfl, by simp [hready], rfl⟩

theorem State.RunsLegally.not_failed {s : State} {req : Instr} {list : List Slot} {seq : Nat}
    (h : s.RunsLegally req list seq) : s.lifecycle ≠ .failed := by
  by_cases hreq : req = .initializeReq
  · obtain ⟨hl, -, -⟩ := h.bringUp hreq; simp [hl]
  · obtain ⟨hl, -, -, -⟩ := h.other hreq; simp [hl]

theorem step_respondsOrRunsOn {s t : State} (h : s.Inv) (hstep : step s = .next t) :
    t = s ∨ ∃ rest, RespondsOrRunsOn { s with port := rest } t := by
  obtain ⟨f, hf, rfl⟩ | ⟨-, rfl⟩ | ⟨-, q, rest, i, -, -, hexec⟩ := step_cases hstep
  · have hrun := h.runsLegally_inFlight hf
    exact .inr ⟨s.port, .inr ⟨_, _, _, _, hrun, rfl, rfl, hrun.not_failed, rfl⟩⟩
  · exact .inl rfl
  · exact .inr ⟨rest, exec_respondsOrRunsOn (h.congr rfl rfl rfl rfl) hexec⟩

/-! ### A legal run that begins without a connection -/

section RunsLegally
variable {s : State} {req : Instr} {list : List Slot} {seq : Nat}

/-- A legal run without a connection is a bring-up at its `Connect` (R36, R69). -/
theorem State.RunsLegally.at_connect (h : s.RunsLegally req list seq) (hconn : s.conn = none) :
    req = .initializeReq ∧ list.drop seq = ⟨.connect, noData⟩ :: (bringUpRaw s.cfg ++ bringUpBytes s.cfg) := by
  have hreq : req = .initializeReq := by
    by_contra hne
    obtain ⟨-, hsome, -, -⟩ := h.other hne
    exact hsome hconn
  obtain ⟨-, rfl, hseq⟩ := h.bringUp hreq
  obtain rfl := hseq.mpr hconn
  exact ⟨hreq, bringUpSeq_eq s.cfg⟩

/-- A legal run that begins without a connection has one at its end, or its `Connect` failed and nothing else was
issued, or the `Connect` has not returned and nothing was recorded (R71, R95). -/
theorem State.RunsLegally.conclude_unconnected (h : s.RunsLegally req list seq) (hconn : s.conn = none) :
    let t := conclude req list (runFrom (list.drop seq) seq s)
    (t.conn ≠ none ∧ t.connects = s.connects + 1) ∨
    (t.lifecycle = .failed ∧ ∃ e, t.trace =
      s.trace ++ [.connect s.addr s.bus (.err e), .response (.err (.transportError e))]) ∨
    t.trace = s.trace := by
  obtain ⟨rfl, hlist⟩ := h.at_connect hconn
  rw [hlist]
  cases hi : s.issue .connect with
  | ok u =>
    refine .inl ⟨?_, ?_⟩
    · obtain ⟨c, hc⟩ := State.issue_connect_conn hi
      simp [conclude_conn_eq, runFrom, hi, hc,
        runFrom_conn_of_no_connect _ _ u (bringUpRest_no_connect s.cfg)]
    · simp [conclude_connects, runFrom, hi,
        runFrom_connects_of_no_connect _ _ u (bringUpRest_no_connect s.cfg), State.issue_connects (.inl hi)]
  | err e u =>
    have htrace : u.trace = s.trace ++ [.connect s.addr s.bus (.err e)] := State.issue_err_trace hi
    exact .inr (.inl ⟨by simp [runFrom, hi, conclude, State.raise_eq], e,
      by simp [runFrom, hi, conclude, State.raise_eq, htrace]⟩)
  | blocked => exact .inr (.inr (by simp [runFrom, hi, conclude]))

end RunsLegally

/-- Settles O46: in a legal state the bound is one `Connect`, and none before a connection. A run over a connection
issues no `Connect`; one without is a bring-up that begins with its only one. -/
theorem connectIsIssuedAtMostOnce : Obligations.ConnectIsIssuedAtMostOnce := by
  intro s t h honce hstep
  rw [(stepKeepsTheInvariant s t h hstep).connectedOnce_iff]
  obtain ⟨hle, hzero⟩ := h.connectedOnce_iff.mp honce
  obtain rfl | ⟨rest, ⟨r, rfl⟩ | ⟨s₀, req, list, seq, hrun, hconn, htrace, hl, rfl⟩⟩ := step_respondsOrRunsOn h hstep
  · exact ⟨hle, hzero⟩
  · rw [State.connects_respond]
    exact ⟨hle, hzero⟩
  · have hcount : s₀.connects = s.connects := State.connects_congr htrace
    by_cases hnone : s₀.conn = none
    · have hfresh : s.connects = 0 := hzero (hconn.symm.trans hnone) hl
      obtain ⟨hsome, hone⟩ | ⟨hfailed, e, hend⟩ | hsame := hrun.conclude_unconnected hnone
      · exact ⟨by omega, fun hc => absurd hc hsome⟩
      · have hone : _ = s₀.connects + 1 := State.connects_of_append hend
        exact ⟨by omega, fun _ hne => absurd hfailed hne⟩
      · have hsame := State.connects_congr hsame
        exact ⟨by omega, fun _ _ => by omega⟩
    · have hkept := hrun.conclude_conn hnone
      have hno := runFrom_connects_of_no_connect _ seq s₀ (hrun.no_connect hnone)
      rw [conclude_connects, hno, hcount]
      exact ⟨hle, fun hc => absurd (hkept.symm.trans hc) hnone⟩

/-! ### Writes and delays -/

@[simp] theorem writtenBytes_append (tr ev : List Event) :
    writtenBytes (tr ++ ev) = writtenBytes tr ++ writtenBytes ev := List.filterMap_append ..

theorem State.respond_writtenBytes (s : State) (r : Response) :
    writtenBytes (s.respond r).trace = writtenBytes s.trace := by
  rw [State.respond_trace, writtenBytes_append, show writtenBytes [.response r] = [] from rfl, List.append_nil]

/-- A request that leaves no connection has written nothing (R36). -/
theorem RespondsOrRunsOn.writtenBytes_of_unconnected {s t : State} (h : RespondsOrRunsOn s t) (ht : t.conn = none) :
    writtenBytes t.trace = writtenBytes s.trace := by
  obtain ⟨r, rfl⟩ | ⟨s₀, req, list, seq, hrun, -, htrace, -, rfl⟩ := h
  · exact s.respond_writtenBytes r
  · rw [← htrace]
    have hnone : s₀.conn = none := by
      by_contra hsome
      exact hsome ((hrun.conclude_conn hsome).symm.trans ht)
    obtain ⟨hsome, -⟩ | ⟨-, e, hend⟩ | hsame := hrun.conclude_unconnected hnone
    · exact absurd ht hsome
    · rw [hend, writtenBytes_append]; exact List.append_nil _
    · rw [hsame]

/-- A unit or a primitive answers `StateError` where R36 lets no write be issued (log entry 11). -/
theorem exec_internal_of_not_mayWrite {i : Instr} {s : State} (hi : isHostRequest i = false) (hidle : s.inFlight = none)
    (hw : s.mayWrite = false) : exec i s = .next (s.raise (.stateError s.lifecycle)) := by
  cases i
  case initializeReq | shutdown | identity | clear | home | setCursor | writeChar | writeString => cases hi
  all_goals exact accepting_of_not_permitted hidle hw

/-- Settles O49: a legal run that ends without a connection got no further than its `Connect`; and where R36 lets no
write be issued only the bring-up runs a list. -/
theorem writesGoOverAConnection : Obligations.WritesGoOverAConnection := by
  refine ⟨fun i s t h hexec hwhen => ?_, fun s t h hstep ht => ?_, fun i s => exec_internal_of_not_mayWrite⟩
  · obtain ht | ⟨hne, hw⟩ := hwhen
    · exact (exec_respondsOrRunsOn h hexec).writtenBytes_of_unconnected ht
    · obtain ⟨hidle, ⟨r, rfl, -⟩ | ⟨hi, -⟩ | ⟨-, -, hready, -⟩⟩ := exec_cases hexec
      · exact s.respond_writtenBytes r
      · exact absurd hi hne
      · rw [← h.mayWrite_iff_ready hidle, or_self, hw] at hready
        exact Bool.noConfusion hready
  · obtain rfl | ⟨rest, hruns⟩ := step_respondsOrRunsOn h hstep
    · rfl
    · exact hruns.writtenBytes_of_unconnected ht

/-- Settles O51: `Delay` asks the transport nothing. -/
theorem delayAlwaysCompletes : Obligations.DelayAlwaysCompletes := State.issue_delay

end Sys2Proof.Machine

/-! PROOFS. Family 30_encoding.md: the decoder and the encoder (R53 to R64). -/

namespace Sys2Proof

/-! ### Bus frames (R54 to R56, R62) -/

/-- EN set is the EN-clear frame with the enable bit driven (R54, R55). -/
theorem frame_enable (en : EnMask) (n : Nibble) (rs : Bool) :
    frame en n rs true = frame en n rs false ||| en.mask := by
  simp [frame]

@[simp] theorem frameNibble_frame (en : EnMask) (n : Nibble) (rs : Bool) : frameNibble (frame en n rs false) = n := by
  change frameNibble (frame .bit1 n rs false) = n
  revert rs n; decide

@[simp] theorem frameRs_frame (en : EnMask) (n : Nibble) (rs : Bool) : frameRs (frame en n rs false) = rs := by
  change frameRs (frame .bit1 n rs false) = rs
  revert rs n; decide

theorem isFrameValue_frame (en : EnMask) (n : Nibble) (rs : Bool) : isFrameValue (frame en n rs false) = true := by
  change isFrameValue (frame .bit1 n rs false) = true
  revert rs n; decide

/-- A frame value is the layout of its own nibble and RS: it drives no other bit (R56). -/
theorem frame_of_isFrameValue (en : EnMask) {v : Byte} (h : isFrameValue v = true) :
    frame en (frameNibble v) (frameRs v) false = v := by
  have hlayout : ∀ v : Byte, isFrameValue v = true → frame .bit1 (frameNibble v) (frameRs v) false = v := by decide
  exact hlayout v h

/-- The two frames of a nibble are one pulse (R55, R62). -/
@[simp] theorem isPulse_frame (en : EnMask) (n : Nibble) (rs : Bool) :
    isPulse en (frame en n rs true) (frame en n rs false) = true := by
  simp [isPulse, isFrameValue_frame, frame_enable]

/-- R62: one pulse is a raw nibble. -/
theorem decodeFrames_pulseFrames (en : EnMask) (n : Nibble) (rs : Bool) :
    decodeFrames en (pulseFrames en n rs) = .instr (.sendRawNibble (frame en n rs false)) := by
  simp [decodeFrames, pulseFrames]

/-- The two nibbles of a byte put it together (R62, R80). -/
theorem byteHigh_append_byteLow (b : Byte) : byteHigh b ++ byteLow b = b := by
  revert b; decide

/-- R62: two pulses are a byte, and RS says which primitive sent it. -/
theorem decodeFrames_byteFrames (en : EnMask) (b : Byte) (rs : Bool) :
    decodeFrames en (byteFrames en b rs) = .instr (if rs then .sendData b else .sendCommand b) := by
  cases rs <;> simp [decodeFrames, byteFrames, pulseFrames, byteHigh_append_byteLow]

/-- A raw nibble's value has passed the check of its pulse (R56). -/
theorem wellFormed_of_decodeFrames {en : EnMask} {bs : List Byte} {i : Instr} (h : decodeFrames en bs = .instr i) :
    i.wellFormed = true := by
  unfold decodeFrames at h
  split at h
  · split_ifs at h with hpulse
    cases h
    simp only [isPulse, Bool.and_eq_true] at hpulse
    exact hpulse.1
  · split_ifs at h <;> cases h <;> rfl
  · cases h

/-! ### Controller units (R57 to R59) -/

theorem decodeUnit_setDdramAddress (a : BitVec 7) :
    decodeUnit (0x080 ||| a.setWidth 16) = .instr (.cmdSetDdramAddress a) := by
  revert a; decide

theorem decodeUnit_dataChar (d : Byte) : decodeUnit (0x100 ||| d.setWidth 16) = .instr (.dataChar d) := by
  revert d; decide

/-- Every unit is well-formed: none of its operands is checked. -/
theorem wellFormed_of_decodeUnit {w : BitVec 16} {i : Instr} (h : decodeUnit w = .instr i) : i.wellFormed = true := by
  unfold decodeUnit at h
  split_ifs at h <;> cases h <;> rfl

theorem wellFormed_of_decodeRaw {n : Byte} {i : Instr} (h : decodeRaw n = .instr i) : i.wellFormed = true := by
  unfold decodeRaw at h
  split_ifs at h <;> cases h <;> rfl

/-! ### Host requests (R63, R64) -/

theorem isCodePoint_iff (c : Nat) : isCodePoint c = true ↔ c ≤ 0x10FFFF := decide_eq_true_iff

theorem isCodePoint_eq_false_iff (c : Nat) : isCodePoint c = false ↔ 0x10FFFF < c :=
  decide_eq_false_iff_not.trans Nat.not_le

theorem decodeWriteChar_of_isCodePoint {c : Nat} (h : isCodePoint c = true) :
    decodeWriteChar c = .instr (.writeChar c) := if_pos h

theorem decodeWriteChar_of_bad {c : Nat} (h : 0x10FFFF < c) : decodeWriteChar c = .reject (.badCodePoint c) :=
  if_neg (Bool.eq_false_iff.mp ((isCodePoint_eq_false_iff c).mpr h))

theorem decodeWriteString_of_all {cs : List Nat} (h : cs.all isCodePoint = true) :
    decodeWriteString cs = .instr (.writeString cs) := by
  have hnone : cs.find? (fun c => !isCodePoint c) = none := by simpa using h
  rw [decodeWriteString, hnone]

/-- The first bad code point names the rejection, whatever stands behind it (R94). -/
theorem decodeWriteString_of_bad {before : List Nat} {c : Nat} (after : List Nat)
    (hbefore : ∀ d ∈ before, d ≤ 0x10FFFF) (hc : 0x10FFFF < c) :
    decodeWriteString (before ++ c :: after) = .reject (.badCodePoint c) := by
  have hfind : (before ++ c :: after).find? (fun d => !isCodePoint d) = some c := by
    rw [List.find?_eq_some_iff_append]
    refine ⟨by simpa [isCodePoint_eq_false_iff] using hc, before, after, rfl, fun d hd => ?_⟩
    simpa [isCodePoint_iff] using hbefore d hd
  rw [decodeWriteString, hfind]

theorem wellFormed_of_decodeWriteChar {c : Nat} {i : Instr} (h : decodeWriteChar c = .instr i) :
    i.wellFormed = true := by
  unfold decodeWriteChar at h
  split_ifs at h with hc
  cases h
  exact hc

theorem wellFormed_of_decodeWriteString {cs : List Nat} {i : Instr} (h : decodeWriteString cs = .instr i) :
    i.wellFormed = true := by
  unfold decodeWriteString at h
  split at h
  · cases h
  · next hnone =>
    cases h
    simpa [Instr.wellFormed] using hnone

theorem wellFormed_of_decodeRequest {tag : Byte} {args : List Arg} {i : Instr}
    (h : decodeRequest tag args = .instr i) : i.wellFormed = true := by
  unfold decodeRequest at h
  split at h
  case h_7 => exact wellFormed_of_decodeWriteChar h
  case h_8 => exact wellFormed_of_decodeWriteString h
  case h_9 => split_ifs at h
  all_goals cases h; rfl

/-- A tag that is none of R63's is refused whatever its arguments (R64). -/
theorem decodeRequest_of_unlisted {tag : Byte} (args : List Arg) (h : tag ∉ requestTags) :
    decodeRequest tag args = .reject (.unknownRequest tag) := by
  have hnum : tag.toNat ∉ requestTags.map BitVec.toNat :=
    fun hmem => h ((List.mem_map_of_injective BitVec.toNat_injective).mp hmem)
  unfold decodeRequest
  split
  case h_9 => simp [h]
  all_goals
    next htag =>
      rw [htag] at hnum
      exact absurd (by decide) hnum

/-! ### The whole decoder -/

/-- Each instruction is read back from its own words, format by format. -/
theorem decode_encode (en : EnMask) {i : Instr} (h : i.wellFormed = true) : decode en (encode en i) = .instr i := by
  cases i
  case writeChar c => exact decodeWriteChar_of_isCodePoint h
  case writeString cs => exact decodeWriteString_of_all h
  case cmdSetDdramAddress a => exact decodeUnit_setDdramAddress a
  case dataChar d => exact decodeUnit_dataChar d
  case sendRawNibble v =>
    exact (decodeFrames_pulseFrames en _ _).trans (by rw [frame_of_isFrameValue en h])
  case sendCommand b => exact decodeFrames_byteFrames en b false
  case sendData b => exact decodeFrames_byteFrames en b true
  all_goals rfl

theorem wellFormed_of_decode {en : EnMask} {item : Item} {i : Instr} (h : decode en item = .instr i) :
    i.wellFormed = true := by
  cases item with
  | request tag args => exact wellFormed_of_decodeRequest h
  | unit w => exact wellFormed_of_decodeUnit h
  | raw n => exact wellFormed_of_decodeRaw h
  | frames bs => exact wellFormed_of_decodeFrames h

/-- Settles O1: a fixed word computes, and a word with operands has its decoder's lemma. -/
theorem encodeThenDecodeGivesInstructionBack : Obligations.EncodeThenDecodeGivesInstructionBack :=
  fun en _ h => decode_encode en h

/-- Settles O2: each format's decoder answers well-formed instructions only. -/
theorem decodedInstructionIsWellFormed : Obligations.DecodedInstructionIsWellFormed :=
  fun _ _ _ h => wellFormed_of_decode h

/-- Settles O3: the twelve closed words compute. -/
theorem specWordsDecode : Obligations.SpecWordsDecode := by
  unfold Obligations.SpecWordsDecode
  decide

end Sys2Proof

/-! PROOFS. Family 30_encoding.md: what the step refuses at decode, and the lists that units, primitives and display
requests run on a good transport (R54 to R59, R66). -/

namespace Sys2Proof.Machine

/-! ### Refusals at decode (R64, R94) -/

/-- What the decoder rejects the step refuses, by the same name. -/
theorem step_of_reject {s : State} {q : Presented} {rest : List Presented} {r : Reject} (hf : s.inFlight = none)
    (hport : s.port = q :: rest) (hrest : overlaps rest = false) (hdec : decode s.cfg.enMask q.item = .reject r) :
    step s = .refused (refusalOf q.item r) := by
  simp [step, State.fetch, hf, hport, hrest, hdec]

/-- Settles O5: the decoder rejects the tag whatever its arguments, and the step refuses what the decoder rejects. -/
theorem unlistedTagIsRefused : Obligations.UnlistedTagIsRefused :=
  fun _ _ args _ _ hf hport hrest htag => step_of_reject hf hport hrest (decodeRequest_of_unlisted args htag)

/-- Settles O6: the decoder names the first bad code point, before the lifecycle is asked. -/
theorem badCodePointRefusesRequest : Obligations.BadCodePointRefusesRequest := by
  refine fun s early rest hf hrest => ⟨fun c hc hport => ?_, fun before after c hbefore hc hport => ?_⟩
  · exact step_of_reject hf hport hrest (decodeWriteChar_of_bad hc)
  · exact step_of_reject hf hport hrest (decodeWriteString_of_bad after hbefore hc)

/-! ### Lists that run to their end -/

/-- A list without `Connect` whose calls are all answered `ok` ends its request with `Ok` (R42). -/
theorem perform_of_okCalls {req : Instr} {list : List Slot} {s : State} (hreq : req ≠ .initializeReq)
    (hlist : ∀ a ∈ list, a.act ≠ .connect) (hok : s.okCalls (calls (acts list))) :
    perform req list s = s.ran (acts list) .ok := by
  rw [perform, runFrom_done list 0 s hlist hok, conclude, State.settleLifecycle_of_ne (h := hreq)]
  rfl

/-- The set-address byte `0x80 | a` by its number (R57). -/
theorem setAddrByte_toNat (a : BitVec 7) : (setAddrByte (a.setWidth 8)).toNat = 0x80 + a.toNat := by
  revert a; decide

/-- A unit or a primitive that R36 lets run runs a list without `Connect`, and its actions are the ones printed for it
(R57 to R59, R76 to R78). -/
theorem exec_of_internalActions {s : State} {i : Instr} {L : List Action} (hidle : s.inFlight = none)
    (hwrite : s.mayWrite = true) (hL : internalActions s.cfg i = some L) :
    ∃ list, (∀ a ∈ list, a.act ≠ .connect) ∧ acts list = L ∧ exec i s = .next (perform i list s) := by
  have haccept (j : Instr) (body : State → State) (hj : permitted j s = s.mayWrite) :
      accepting j body s = .next (body s) := accepting_of_permitted hidle (hj.trans hwrite)
  cases i <;> simp only [internalActions, reduceCtorEq, Option.some.injEq] at hL <;> subst hL
  case rawInit8bit => exact ⟨_, rawInit8Seq_no_connect s.cfg, acts_rawInit8Seq _, haccept _ _ rfl⟩
  case rawInit4bit => exact ⟨_, rawNibbleSeq_no_connect s.cfg _, acts_rawInit4Seq _, haccept _ _ rfl⟩
  case cmdClear => exact ⟨_, clearSeq_no_connect s.cfg, acts_clearSeq _, haccept _ _ rfl⟩
  case cmdHome => exact ⟨_, homeSeq_no_connect s.cfg, acts_homeSeq _, haccept _ _ rfl⟩
  case cmdFunctionSet2line =>
    exact ⟨_, byteSeq_no_connect s.cfg false _, acts_commandSeq _ Config.cmdFunctionSet2Line, haccept _ _ rfl⟩
  case cmdDisplayOn =>
    exact ⟨_, byteSeq_no_connect s.cfg false _, acts_commandSeq _ Config.cmdDisplayOn, haccept _ _ rfl⟩
  case cmdSetDdramAddress a =>
    refine ⟨_, byteSeq_no_connect s.cfg false _, ?_, haccept _ _ rfl⟩
    exact (acts_commandSeq _ _).trans (by rw [setAddrByte_toNat])
  case sendRawNibble v => exact ⟨_, rawNibbleSeq_no_connect s.cfg v, rfl, haccept _ _ rfl⟩
  case sendCommand b => exact ⟨_, byteSeq_no_connect s.cfg false b, acts_commandSeq _ _, haccept _ _ rfl⟩
  case dataChar b | sendData b => exact ⟨_, byteSeq_no_connect s.cfg true b, acts_dataSeq _ _, haccept _ _ rfl⟩

/-- On a good transport a unit or a primitive completes: its printed list ran and `Ok` was returned, and nothing else
changed. -/
theorem exec_internal_of_okCalls {s : State} {i : Instr} {L : List Action} (hidle : s.inFlight = none)
    (hwrite : s.mayWrite = true) (hL : internalActions s.cfg i = some L) (hok : s.okCalls (calls L)) :
    exec i s = .next (s.ran L .ok) := by
  have hne : i ≠ .initializeReq := by rintro rfl; cases hL
  obtain ⟨list, hlist, rfl, hexec⟩ := exec_of_internalActions hidle hwrite hL
  rw [hexec, perform_of_okCalls hne hlist hok]

/-- On a good transport a display request in `Ready` completes, likewise. -/
theorem exec_display_of_okCalls {s : State} {i : Instr} {L : List Action} (hidle : s.inFlight = none)
    (hready : s.lifecycle = .ready) (hL : displayActions s.cfg i = some L) (hok : s.okCalls (calls L)) :
    exec i s = .next (s.ran L .ok) := by
  have hne : i ≠ .initializeReq := by rintro rfl; cases hL
  obtain ⟨list, hbytes, rfl, hexec⟩ := exec_of_displayActions hidle hready hL
  rw [hexec, perform_of_okCalls hne hbytes.no_connect hok]

/-- Settles O17: the raw units run their printed lists, of two writes each. -/
theorem rawUnitsComplete : Obligations.RawUnitsComplete :=
  fun _ hidle hwrite hok =>
    ⟨exec_internal_of_okCalls hidle hwrite rfl hok, exec_internal_of_okCalls hidle hwrite rfl hok⟩

/-- Settles O18: the units 0x01 and 0x02 run their printed lists, of four writes each. -/
theorem clearAndHomeUnitsComplete : Obligations.ClearAndHomeUnitsComplete :=
  fun _ hidle hwrite hok =>
    ⟨exec_internal_of_okCalls hidle hwrite rfl hok, exec_internal_of_okCalls hidle hwrite rfl hok⟩

/-! ### The bytes written are the layout (R54) -/

/-- The bytes that a list writes once all of it has completed. -/
def bytesWritten (L : List Action) : List Byte :=
  L.filterMap fun a => match a with
    | .write v => some v
    | .connect => none
    | .delay _ => none

@[simp] theorem bytesWritten_append (L M : List Action) : bytesWritten (L ++ M) = bytesWritten L ++ bytesWritten M :=
  List.filterMap_append ..

theorem writtenBytes_map_okEvent (s : State) (h : Handle) (L : List Action) :
    writtenBytes (L.map (s.okEvent h)) = bytesWritten L := by
  rw [writtenBytes, List.filterMap_map, bytesWritten]
  congr 1
  funext a
  cases a <;> rfl

theorem State.ran_writtenBytes (s : State) (L : List Action) (r : Response) :
    writtenBytes (s.ran L r).trace = writtenBytes s.trace ++ bytesWritten L := by
  have htrace : (s.ran L r).trace = s.trace ++ L.map (s.okEvent 0) ++ [.response r] := rfl
  have hresp : writtenBytes [.response r] = [] := rfl
  rw [htrace, writtenBytes_append, writtenBytes_append, hresp, List.append_nil, writtenBytes_map_okEvent]

/-- The pulse of a frame writes the two frames of its nibble (R54, R76). -/
theorem bytesWritten_nibbleActions (p : Params) (n : Nibble) (rs : Bool) :
    bytesWritten (nibbleActions p (frame p.enMask n rs false)) = pulseFrames p.enMask n rs := by
  rw [pulseFrames, frame_enable]
  rfl

/-- The high nibble's frame value is its EN-clear layout (R54, R61). -/
theorem withRs_hi_eq_frame (en : EnMask) (rs : Bool) (b : Byte) :
    withRs rs (hi b) = frame en (byteHigh b) rs false := by
  change withRs rs (hi b) = frame .bit1 (byteHigh b) rs false
  revert rs b; decide

/-- The low nibble's frame value is its EN-clear layout (R54, R61). -/
theorem withRs_lo_eq_frame (en : EnMask) (rs : Bool) (b : Byte) :
    withRs rs (lo b) = frame en (byteLow b) rs false := by
  change withRs rs (lo b) = frame .bit1 (byteLow b) rs false
  revert rs b; decide

/-- A byte writes its four frames, high nibble first (R43, R77, R78). -/
theorem bytesWritten_byteSeq (p : Params) (rs : Bool) (b : Byte) :
    bytesWritten (acts (byteSeq p rs b)) = byteFrames p.enMask b rs := by
  rw [acts_byteSeq, unitActions, bytesWritten_append, withRs_hi_eq_frame p.enMask, withRs_lo_eq_frame p.enMask,
    bytesWritten_nibbleActions, bytesWritten_nibbleActions, byteFrames]

/-- A raw nibble writes the two frames of its value (R76). -/
theorem bytesWritten_rawNibbleSeq (p : Params) {v : Byte} (h : isFrameValue v = true) :
    bytesWritten (acts (rawNibbleSeq p v)) = pulseFrames p.enMask (frameNibble v) (frameRs v) := by
  rw [rawNibbleSeq, acts_pulse p _ h, ← bytesWritten_nibbleActions, frame_of_isFrameValue _ h]

/-- The item of a primitive is the frames that its list writes. -/
theorem internalActions_of_encode_frames {p : Params} {i : Instr} {bs : List Byte} (hi : i.wellFormed = true)
    (h : encode p.enMask i = .frames bs) :
    ∃ L, internalActions p i = some L ∧ bytesWritten L = bs ∧ calls L = bs.length := by
  cases i <;> simp only [encode, reduceCtorEq, Item.frames.injEq] at h <;> subst h
  case sendRawNibble v => exact ⟨acts (rawNibbleSeq p v), rfl, bytesWritten_rawNibbleSeq p hi, rfl⟩
  case sendCommand b =>
    exact ⟨_, congrArg some (acts_commandSeq p b).symm, bytesWritten_byteSeq p false b, rfl⟩
  case sendData b =>
    exact ⟨_, congrArg some (acts_dataSeq p b).symm, bytesWritten_byteSeq p true b, rfl⟩

/-- Settles O4: a primitive completes with its printed list, and that list writes the frames of its encoding. -/
theorem framesWrittenAreTheLayout : Obligations.FramesWrittenAreTheLayout := by
  intro s i bs hi henc hidle hwrite hok
  obtain ⟨L, hL, rfl, hcalls⟩ := internalActions_of_encode_frames hi henc
  exact ⟨_, exec_internal_of_okCalls hidle hwrite hL (hcalls ▸ hok), State.ran_writtenBytes s L .ok⟩

/-! ### A string is its first character and then the rest (R66) -/

/-- Two lists in turn leave what one list leaves, but for the response between them. -/
theorem State.ran_ran (s : State) (A B : List Action) (r r' : Response) :
    { (s.ran A r).ran B r' with trace := (s.ran (A ++ B) r').trace } = s.ran (A ++ B) r' := by
  simp [State.ran, calls_append, Lcd.ran_append, List.drop_drop]

theorem displayActions_writeChar (p : Params) {c : Nat} (hc : c ≤ 0x10FFFF) :
    displayActions p (.writeChar c) = some (dataActions p (c % 256)) :=
  if_pos ((isCodePoint_iff c).mpr hc)

theorem displayActions_writeString (p : Params) {cs : List Nat} (hcs : ∀ c ∈ cs, c ≤ 0x10FFFF) :
    displayActions p (.writeString cs) = some (stringActions p cs) :=
  if_pos (List.all_eq_true.mpr fun c hc => (isCodePoint_iff c).mpr (hcs c hc))

theorem stringActions_cons (p : Params) (c : Nat) (cs : List Nat) :
    stringActions p (c :: cs) = dataActions p (c % 256) ++ stringActions p cs := rfl

theorem calls_stringActions (p : Params) (cs : List Nat) : calls (stringActions p cs) = 4 * cs.length := by
  induction cs with
  | nil => rfl
  | cons c cs ih =>
    have hchar : calls (dataActions p (c % 256)) = 4 := rfl
    rw [stringActions_cons, calls_append, hchar, ih, List.length_cons]
    omega

/-- Settles O28: the string's list is the character's list and then the rest's, and two lists in turn act as one. -/
theorem writeStringIsWriteCharThenRest : Obligations.WriteStringIsWriteCharThenRest := by
  intro s c cs hidle hready hok hcodes
  obtain ⟨hc, hcs⟩ := List.forall_mem_cons.mp hcodes
  rw [Nat.mul_add_one] at hok
  have hchar := exec_display_of_okCalls hidle hready (displayActions_writeChar s.cfg hc)
    (State.okCalls_mono hok (Nat.le_add_left 4 _))
  have hrest := exec_display_of_okCalls (s := s.ran (dataActions s.cfg (c % 256)) .ok) hidle hready
    (displayActions_writeString s.cfg hcs)
    (State.okCalls_of_drop (s := s) (n := 4) rfl rfl (by rwa [calls_stringActions, Nat.add_comm]))
  have hwhole := exec_display_of_okCalls hidle hready (displayActions_writeString s.cfg hcodes)
    (by rwa [calls_stringActions, List.length_cons, Nat.mul_add_one])
  have hturn := s.ran_ran (dataActions s.cfg (c % 256)) (stringActions s.cfg cs) .ok .ok
  refine ⟨_, _, _, hchar, hrest, hwhole, ?_, (congrArg State.lcd hturn :), (congrArg State.answers hturn :), hturn⟩
  rw [State.ran_writtenBytes, State.ran_writtenBytes, State.ran_writtenBytes, stringActions_cons, bytesWritten_append,
    List.append_assoc]

end Sys2Proof.Machine

/-! PROOFS. Family 40_lifecycle.md: construction, the bring-up to its end or to a failing call, `shutdown` and
`identity` (R67 to R75). -/

namespace Sys2Proof.Machine

/-! ### Construction (R33, R67) -/

/-- Settles O39: construction copies the parameters, takes each override or its default, and knows nothing of the
display. -/
theorem constructionCapturesConfiguration : Obligations.ConstructionCapturesConfiguration := by
  intro p o answers standing
  have haddr : (State.construct p o answers standing).addr = o.addr.getD 0x00 := rfl
  have hbus : (State.construct p o answers standing).bus = o.bus.getD p.defaultBus := rfl
  have hdisplay : (State.construct p o answers standing).displayUnknown := ⟨rfl, rfl, rfl, rfl, rfl⟩
  refine ⟨State.construct_lifecycle .., State.construct_conn .., rfl, State.construct_trace ..,
    State.construct_inFlight .., fun h => ?_, fun a h => ?_, fun h => ?_, fun b h => ?_, rfl, hdisplay⟩
  · rw [haddr, h, Option.getD_none]
  · rw [haddr, h, Option.getD_some]
  · rw [hbus, h, Option.getD_none]
  · rw [hbus, h, Option.getD_some]

/-- Settles O53: with nothing in flight the empty trace stands between pulses. -/
theorem constructionIsFramed : Obligations.ConstructionIsFramed :=
  fun _ _ _ _ hactions => ⟨hactions, rfl⟩

/-! ### Requests that only respond (R68, R74, R75) -/

/-- Settles O38: `identity` is permitted in every lifecycle state. -/
theorem identityReturnsTheName : Obligations.IdentityReturnsTheName := by
  intro s hidle
  rw [exec, execIdentity, accepting_of_permitted hidle rfl]
  rfl

/-- Settles O35: outside `NotStarted` the guard of `initialize` does not let it run. -/
theorem initializeRunsOnce : Obligations.InitializeRunsOnce := by
  intro s hidle hstarted
  have hguard : permitted .initializeReq s = false := decide_eq_false hstarted
  rw [exec, execInitialize, accepting_of_not_permitted hidle hguard]
  rfl

/-- Settles O36: `shutdown` is permitted in every lifecycle state, and runs a list only in `Ready` and only where there
is one. -/
theorem shutdownWithoutActionsIsSilent : Obligations.ShutdownWithoutActionsIsSilent := by
  intro s hidle hsilent
  have hnothing : ¬ (s.lifecycle = .ready ∧ s.cfg.shutdownActions ≠ []) :=
    fun ⟨hready, hactions⟩ => hsilent.elim (· hready) hactions
  rw [exec, execShutdown, accepting_of_permitted hidle rfl, if_neg hnothing]
  rfl

/-! ### Lists that a call ends -/

/-- A list without `Connect` whose call number `k` answers `err(e)` ends its request there with that error (R42,
R91). -/
theorem perform_of_failsAt {req : Instr} {list : List Slot} {s : State} {k : Nat} {e : BusError} {a : Action}
    (hreq : req ≠ .initializeReq) (hlist : ∀ b ∈ list, b.act ≠ .connect) (hcall : callAt k (acts list) = some a)
    (hfail : s.failsAt k e) : perform req list s = s.stopped (acts list) k a e := by
  rw [perform, runFrom_failed hlist hcall hfail, conclude, State.settleLifecycle_of_ne (h := hreq), State.raise_eq]
  simp [State.respond, State.emit, State.stopped]

/-- A list without `Connect` whose call number `k` never returns leaves its request in flight at that call, with the
values beside it (R95). -/
theorem perform_of_hangsAt {req : Instr} {list : List Slot} {s : State} {k : Nat} {a : Action}
    (hlist : ∀ b ∈ list, b.act ≠ .connect) (hcall : callAt k (acts list) = some a) (hhang : s.hangsAt k) :
    ∃ x ∈ list, x.act = a ∧ perform req list s =
      { s.went (beforeCall k (acts list)) with
        answers := s.answers.drop k,
        inFlight := some ⟨req, list, (beforeCall k (acts list)).length, x.dp⟩ } := by
  obtain ⟨pre, x, post, hsplit, hpre, hcalls, hx, hrun⟩ := runFrom_blocked (q := 0) hlist hcall hhang
  refine ⟨x, by simp [hsplit], hx, ?_⟩
  rw [perform, hrun, conclude, Nat.zero_add, State.went, ← hpre, hcalls]

/-! ### `shutdown` in `Ready` (R74) -/

/-- The list that `shutdown` runs is `SHUTDOWN_ACTIONS` (R74). -/
theorem acts_shutdownSeq (p : Params) : acts (shutdownSeq p) = p.shutdownActions.map portAction := by
  rw [acts, shutdownSeq, List.map_map]
  refine List.map_congr_left fun a _ => ?_
  cases a <;> rfl

/-- A write of `SHUTDOWN_ACTIONS` has its own byte's values beside it (log entry 3). -/
theorem shutdownSeq_formed (p : Params) : ∀ x ∈ shutdownSeq p, x.Formed p.enMask := by
  refine List.forall_mem_map.mpr fun a _ => ?_
  cases a with
  | write v => rintro now ⟨⟩; exact ⟨rfl, rfl⟩
  | delay t => exact waitSlot_formed _ t _

/-- In `Ready` `shutdown` runs its list, the empty one too (R74). -/
theorem exec_shutdown_of_ready {s : State} (hidle : s.inFlight = none) (hready : s.lifecycle = .ready) :
    exec .shutdown s = .next (perform .shutdown (shutdownSeq s.cfg) s) := by
  rw [exec, execShutdown, accepting_of_permitted hidle rfl]
  by_cases hactions : s.cfg.shutdownActions = []
  · have hempty : shutdownSeq s.cfg = [] := by rw [shutdownSeq, hactions, List.map_nil]
    rw [if_neg (fun h => h.2 hactions), hempty]
    rfl
  · rw [if_pos ⟨hready, hactions⟩]

/-- Settles O37: the list of `shutdown` has no `Connect`, so it runs to its end, to a failing call, or to a call that
has not returned, which is one of its writes. -/
theorem shutdownRunsItsActions : Obligations.ShutdownRunsItsActions := by
  intro s hidle hready
  have hno := shutdownSeq_no_connect s.cfg
  rw [exec_shutdown_of_ready hidle hready, ← acts_shutdownSeq]
  refine ⟨fun hok => ?_, fun k e a hcall hfail => ?_, fun k a hcall hhang => ?_⟩
  · rw [perform_of_okCalls (by decide) hno hok]
  · rw [perform_of_failsAt (by decide) hno hcall hfail]
  · obtain ⟨x, hmem, rfl, hperform⟩ := perform_of_hangsAt (req := .shutdown) hno hcall hhang
    have hisCall : x.act.isCall = true := (List.mem_filter.mp (List.mem_of_getElem? hcall)).2
    obtain ⟨now, hnow⟩ := exists_write hisCall (hno x hmem)
    obtain ⟨hv, hrs⟩ := shutdownSeq_formed s.cfg x hmem now hnow
    refine ⟨shutdownSeq s.cfg, x.dp, now, rfl, hnow, hv, hrs, ?_⟩
    rw [hperform]
    rfl

/-! ### The bring-up to its end or to a failing call (R69 to R73) -/

/-- After `Connect` the next answer is number 1. -/
theorem State.connected_answerAt (s : State) (h : Handle) (k : Nat) :
    (s.connected h).answerAt k = s.answerAt (1 + k) :=
  State.answerAt_of_drop (s := s) (t := s.connected h) rfl rfl k

theorem State.connected_okCalls {s : State} {n : Nat} (h : Handle) (hok : s.okCalls (n + 1)) :
    (s.connected h).okCalls n :=
  State.okCalls_of_drop (s := s) (n := 1) rfl rfl (by rwa [Nat.add_comm])

theorem State.connected_failsAt {s : State} {k : Nat} {e : BusError} (h : Handle) (hfail : s.failsAt (k + 1) e) :
    (s.connected h).failsAt k e :=
  ⟨State.connected_okCalls h hfail.1, by rw [State.connected_answerAt, Nat.add_comm, hfail.2]⟩

/-- After `Connect` the events of a list without another are those before it, whatever handle they would show. -/
theorem State.connected_map_okEvent (s : State) (h : Handle) {L : List Action} (hL : ∀ a ∈ L, a ≠ .connect) :
    L.map ((s.connected h).okEvent 0) = L.map (s.okEvent h) := by
  rw [State.okEvent_congr (s := s) (t := s.connected h) rfl rfl, s.map_okEvent_of_no_connect 0 h hL]

theorem acts_bringUpRest_no_connect (p : Params) : ∀ a ∈ acts (bringUpRaw p ++ bringUpBytes p), a ≠ .connect :=
  List.forall_mem_map.mpr (bringUpRest_no_connect p)

/-- Call number `k + 1` of the bring-up is call number `k` after its `Connect`. -/
theorem callAt_succ_initializeActions (p : Params) (k : Nat) :
    callAt (k + 1) (initializeActions p) = callAt k (acts (bringUpRaw p ++ bringUpBytes p)) := by
  rw [initializeActions_eq]
  rfl

/-- Before call number `k + 1` of the bring-up stand its `Connect` and what is before call `k` of the rest. -/
theorem beforeCall_succ_initializeActions (p : Params) (k : Nat) :
    beforeCall (k + 1) (initializeActions p) = .connect :: beforeCall k (acts (bringUpRaw p ++ bringUpBytes p)) := by
  rw [initializeActions_eq, beforeCall]

/-- A bring-up that a failing call ends is `Failed` and returns that call's error (R71). -/
theorem conclude_initialize_failed (list : List Slot) (e : BusError) (s : State) :
    conclude .initializeReq list (.failed e s) =
      { s with lifecycle := .failed, trace := s.trace ++ [.response (.err (.transportError e))] } := rfl

/-- Settles O31: `Connect` is answered with the handle, and the list after it, without another, runs to its end. -/
theorem initializeBringsUp : Obligations.InitializeBringsUp := by
  intro s c hidle hstart hfirst hok
  have hrest : (s.booting.connected c).okCalls (calls (acts (bringUpRaw s.cfg ++ bringUpBytes s.cfg))) :=
    State.connected_okCalls (s := s.booting) c hok
  rw [exec_initialize hidle hstart, perform, runFrom_bringUpSeq_connected (s := s.booting) _ hfirst,
    runFrom_done _ 1 _ (bringUpRest_no_connect s.cfg) hrest,
    State.connected_went _ c (acts_bringUpRest_no_connect s.cfg), calls_bringUpRest, ← initializeActions_eq]
  rfl

/-- Settles O32: the bring-up ends at its first action. -/
theorem initializeFailsAtConnect : Obligations.InitializeFailsAtConnect := by
  intro s e hidle hstart hfail
  rw [exec_initialize hidle hstart, perform, bringUpSeq_eq, runFrom, State.issue_connect_err (s := s.booting) hfail.2]
  simp [conclude_initialize_failed, State.emit, State.booting]

/-- Settles O33: `Connect` is answered with the handle, and the list after it, without another, ends at its failing
call. -/
theorem initializeFailsAtAWrite : Obligations.InitializeFailsAtAWrite := by
  intro s c k e a hidle hstart hfirst hpos hcall hfail
  obtain ⟨k, rfl⟩ := Nat.exists_eq_succ_of_ne_zero hpos.ne'
  rw [callAt_succ_initializeActions] at hcall
  have hbefore : ∀ b ∈ beforeCall k (acts (bringUpRaw s.cfg ++ bringUpBytes s.cfg)), b ≠ .connect :=
    fun b hb => acts_bringUpRest_no_connect s.cfg b ((beforeCall_isPrefix k _).subset hb)
  rw [exec_initialize hidle hstart, perform, runFrom_bringUpSeq_connected (s := s.booting) _ hfirst,
    runFrom_failed (bringUpRest_no_connect s.cfg) hcall (State.connected_failsAt (s := s.booting) c hfail),
    State.connected_map_okEvent _ c hbefore, State.okEvent_congr (s := s) (t := s.booting) rfl rfl,
    State.errEvent_congr (s := s) (t := s.booting.connected c) rfl rfl, beforeCall_succ_initializeActions]
  simp [conclude_initialize_failed, State.booting, State.connected, State.emit, State.okEvent, Lcd.ran]

end Sys2Proof.Machine

/-! PROOFS. Family 41_framing.md: the nibble split, and the framer primitives and units to their end or to a failing
write (R76 to R81). -/

namespace Sys2Proof.Machine

/-! ### The nibble split (R80) -/

/-- The low frame value, moved back down, is the low nibble in place. -/
theorem lo_ushiftRight_four (b : Byte) : lo b >>> 4 = b &&& 0x0F := by
  revert b; decide

/-- Settles O13: the two halves of the byte are the masks `0xF0` and `0x0F`, which together keep every bit. -/
theorem nibbleSplitReassembles : Obligations.NibbleSplitReassembles := by
  intro b
  calc hi b ||| lo b >>> 4 = (b &&& 0xF0) ||| (b &&& 0x0F) := by rw [lo_ushiftRight_four, hi]
    _ = b &&& BitVec.allOnes 8 := (BitVec.and_or_distrib_left ..).symm
    _ = b := BitVec.and_allOnes

/-! ### Primitives and units on a good transport (R76 to R78) -/

/-- Settles O14: the printed list of `sendRawNibble` is one pulse, of two writes. -/
theorem rawNibbleCompletes : Obligations.RawNibbleCompletes :=
  fun _ _ hidle hwrite hok => exec_internal_of_okCalls hidle hwrite rfl hok

/-- Settles O15: each command byte runs its printed list, of four writes. -/
theorem commandBytesComplete : Obligations.CommandBytesComplete := by
  intro s hidle hwrite hok
  have hruns {i : Instr} {L : List Action} (hL : internalActions s.cfg i = some L) (hcalls : calls L = 4) :
      exec i s = .next (s.ran L .ok) := exec_internal_of_okCalls hidle hwrite hL (hcalls ▸ hok)
  exact ⟨fun _ => hruns rfl rfl, hruns rfl rfl, hruns rfl rfl, fun _ => hruns rfl rfl⟩

/-- Settles O16: the primitive and the data unit have one printed list, of four writes. -/
theorem dataBytesComplete : Obligations.DataBytesComplete :=
  fun _ _ hidle hwrite hok =>
    ⟨exec_internal_of_okCalls hidle hwrite rfl hok, exec_internal_of_okCalls hidle hwrite rfl hok⟩

/-! ### A failing write (R42, R114) -/

/-- Settles O19: a unit or a primitive runs its printed list, which has no `Connect`, and that list ends at its failing
call. -/
theorem firstFailureEndsThePrimitive : Obligations.FirstFailureEndsThePrimitive := by
  intro s i L k e a hidle hwrite hL hcall hfail
  have hne : i ≠ .initializeReq := by rintro rfl; cases hL
  obtain ⟨list, hlist, rfl, hexec⟩ := exec_of_internalActions hidle hwrite hL
  rw [hexec, perform_of_failsAt hne hlist hcall hfail]

end Sys2Proof.Machine

/-! PROOFS. Family 42_display_ops.md: the address decoder, the display requests to their end or to a failing write
(R82 to R88), and what bytes do downstream (R31, R32, R89). -/

namespace Sys2Proof.Machine

/-! ### The address decoder (R84) -/

/-- The valid cells are the 32 of R84. -/
theorem validCell_iff (row col : Int) : validCell row col = true ↔ (row = 0 ∨ row = 1) ∧ 0 ≤ col ∧ col ≤ 15 := by
  have hdef : validCell row col = true ↔ 0 ≤ row ∧ row < 2 ∧ 0 ≤ col ∧ col < 16 := decide_eq_true_iff
  rw [hdef]
  omega

/-- Settles O25: a valid cell has the byte of its number, and no other pair is a valid cell. -/
theorem decoderMapsExactlyTheCells : Obligations.DecoderMapsExactlyTheCells := by
  have hcell {row col : Int} (hrow : row = 0 ∨ row = 1) (hlow : 0 ≤ col) (hhigh : col ≤ 15) :
      decodeCell row col = some (BitVec.ofNat 8 ((if row = 0 then 0x80 else 0xC0) + col.toNat)) := by
    obtain ⟨b, hb, hnum⟩ := decodeCell_of_validCell ((validCell_iff row col).mpr ⟨hrow, hlow, hhigh⟩)
    rw [hb, ← hnum, BitVec.ofNat_toNat, BitVec.setWidth_eq]
  refine ⟨fun col hlow hhigh => ⟨hcell (.inl rfl) hlow hhigh, hcell (.inr rfl) hlow hhigh⟩, fun row col hbad => ?_⟩
  exact if_neg fun hvalid => hbad ((validCell_iff row col).mp hvalid)

/-! ### Display requests on a good transport (R82 to R87) -/

theorem displayActions_setCursor (p : Params) {row col : Int} (hrow : row = 0 ∨ row = 1) (hlow : 0 ≤ col)
    (hhigh : col ≤ 15) : displayActions p (.setCursor row col) = some (cursorActions p row col) :=
  if_pos ((validCell_iff row col).mpr ⟨hrow, hlow, hhigh⟩)

/-- Settles O20: the printed list of `clear`, of four writes, runs to its end. -/
theorem clearCompletes : Obligations.ClearCompletes :=
  fun _ hidle hready hok => exec_display_of_okCalls hidle hready rfl hok

/-- Settles O21: the printed list of `home`, of four writes, runs to its end. -/
theorem homeCompletes : Obligations.HomeCompletes :=
  fun _ hidle hready hok => exec_display_of_okCalls hidle hready rfl hok

/-- Settles O22: the printed list of a valid `setCursor` is the command byte of its cell. -/
theorem setCursorCompletes : Obligations.SetCursorCompletes :=
  fun s _ _ hidle hready hok hrow hlow hhigh =>
    exec_display_of_okCalls hidle hready (displayActions_setCursor s.cfg hrow hlow hhigh) hok

/-- Settles O26: the printed list of `writeChar` is the data byte of the code point's low 8 bits. -/
theorem writeCharCompletes : Obligations.WriteCharCompletes :=
  fun s _ hidle hready hok hc => exec_display_of_okCalls hidle hready (displayActions_writeChar s.cfg hc) hok

/-- Settles O27: the printed list of a string makes four calls for each character. -/
theorem writeStringCompletes : Obligations.WriteStringCompletes :=
  fun s cs hidle hready hok hcs =>
    exec_display_of_okCalls hidle hready (displayActions_writeString s.cfg hcs)
      ((calls_stringActions s.cfg cs).symm ▸ hok)

/-! ### A failing write (R88) -/

/-- Settles O29: a display request runs its printed list, which has no `Connect`, and that list ends at its failing
call. -/
theorem firstFailureEndsTheDisplayRequest : Obligations.FirstFailureEndsTheDisplayRequest := by
  intro s i L k e a hidle hready hL hcall hfail
  have hne : i ≠ .initializeReq := by rintro rfl; cases hL
  obtain ⟨list, hbytes, rfl, hexec⟩ := exec_of_displayActions hidle hready hL
  rw [hexec, perform_of_failsAt hne hbytes.no_connect hcall hfail]

/-! ### A pulse downstream (R55, R76) -/

/-- A frame value has EN clear (R56). -/
theorem enAsserted_of_isFrameValue (en : EnMask) {v : Byte} (h : isFrameValue v = true) : enAsserted en v = false := by
  have hclear : ∀ v : Byte, isFrameValue v = true → enAsserted en v = false := by cases en <;> decide
  exact hclear v h

theorem enAsserted_enSet (en : EnMask) (v : Byte) : enAsserted en (enSet en v) = true := by
  cases en <;> revert v <;> decide

theorem frameNibble_withRs_hi (rs : Bool) (b : Byte) : frameNibble (withRs rs (hi b)) = byteHigh b := by
  rw [withRs_hi_eq_frame .bit1, frameNibble_frame]

theorem frameNibble_withRs_lo (rs : Bool) (b : Byte) : frameNibble (withRs rs (lo b)) = byteLow b := by
  rw [withRs_lo_eq_frame .bit1, frameNibble_frame]

section Downstream
variable {p : Params} {l : Lcd}

/-- Unless the display was lost, the pulse of a frame value latches its nibble and RS, whatever stood on the wire. -/
theorem Lcd.ran_nibbleActions (hlost : l.lost = false) {v : Byte} (hv : isFrameValue v = true) :
    Lcd.ran p.enMask l (nibbleActions p v) = Lcd.latch (frameNibble v) (rsOf v) { l with wire := some v } := by
  have hset : l.onWrite p.enMask (enSet p.enMask v) = { l with wire := some (enSet p.enMask v) } := by
    simp [Lcd.onWrite, hlost, enAsserted_enSet]
  have hclear : Lcd.onWrite p.enMask v { l with wire := some (enSet p.enMask v) } =
      Lcd.latch (frameNibble v) (rsOf v) { l with wire := some v } := by
    simp [Lcd.onWrite, hlost, enAsserted_enSet, enAsserted_of_isFrameValue _ hv, frameNibble]
  calc Lcd.ran p.enMask l (nibbleActions p v)
      = Lcd.onWrite p.enMask v (l.onWrite p.enMask (enSet p.enMask v)) := rfl
    _ = _ := by rw [hset, hclear]

/-- A delay does nothing downstream (log entry 24). -/
theorem Lcd.ran_append_delay (en : EnMask) (l : Lcd) (L : List Action) (t : Nat) :
    Lcd.ran en l (L ++ [.delay t]) = Lcd.ran en l L := by
  rw [Lcd.ran_append]
  rfl

/-! ### A byte downstream (R32, R89) -/

/-- `State.inStep` of the downstream state alone. -/
structure Lcd.InStep (en : EnMask) (l : Lcd) : Prop where
  ifmode : l.ifmode = .fourBit
  phase  : l.phase = .high
  lost   : l.lost = false
  wire   : ∃ w, l.wire = some w ∧ enAsserted en w = false

theorem State.inStep_iff (s : State) : s.inStep ↔ s.lcd.InStep s.cfg.enMask :=
  ⟨fun ⟨hmode, hphase, hlost, hwire⟩ => ⟨hmode, hphase, hlost, hwire⟩,
    fun ⟨hmode, hphase, hlost, hwire⟩ => ⟨hmode, hphase, hlost, hwire⟩⟩

/-- `l` between bytes, with `v` on its wire. -/
def Lcd.betweenBytes (v : Byte) (l : Lcd) : Lcd := { l with phase := .high, wire := some v, pending := none }

/-- `l` after a whole byte `b` with that RS: R89's row of it, the low nibble's frame left on the wire. -/
def Lcd.sent (rs : Bool) (b : Byte) (l : Lcd) : Lcd :=
  if rs then (l.betweenBytes (withRs rs (lo b))).data else Lcd.command b (l.betweenBytes (withRs rs (lo b)))

section Command
variable (b : Byte) (l : Lcd)

@[simp] theorem Lcd.command_ifmode : (Lcd.command b l).ifmode = l.ifmode := by unfold Lcd.command; split_ifs <;> rfl
@[simp] theorem Lcd.command_phase : (Lcd.command b l).phase = l.phase := by unfold Lcd.command; split_ifs <;> rfl
@[simp] theorem Lcd.command_lost : (Lcd.command b l).lost = l.lost := by unfold Lcd.command; split_ifs <;> rfl
@[simp] theorem Lcd.command_wire : (Lcd.command b l).wire = l.wire := by unfold Lcd.command; split_ifs <;> rfl

end Command

/-- R89's row of set-address. -/
theorem Lcd.command_setAddrByte (a : BitVec 7) (l : Lcd) :
    Lcd.command (setAddrByte (a.setWidth 8)) l = { l with cursor := some a } := by
  have hrow : ∀ a : BitVec 7, setAddrByte (a.setWidth 8) ≠ Config.cmdFunctionSet2Line ∧
      setAddrByte (a.setWidth 8) ≠ Config.cmdDisplayOn ∧ setAddrByte (a.setWidth 8) ≠ Config.cmdClear ∧
      setAddrByte (a.setWidth 8) ≠ Config.cmdHome ∧ setAddrByte (a.setWidth 8) &&& Config.cmdSetAddr ≠ 0 ∧
      (setAddrByte (a.setWidth 8)).setWidth 7 = a := by decide
  obtain ⟨hfunction, hon, hclear, hhome, hset, haddr⟩ := hrow a
  rw [Lcd.command, if_neg hfunction, if_neg hon, if_neg hclear, if_neg hhome, if_pos hset, haddr]

/-- Every whole byte, listed or not, leaves the controller in step (R32). -/
theorem Lcd.InStep.sent {en : EnMask} (h : l.InStep en) (rs : Bool) (b : Byte) : (l.sent rs b).InStep en := by
  have hwire : enAsserted en (withRs rs (lo b)) = false := enAsserted_of_isFrameValue en (isFrameValue_withRs_lo rs b)
  cases rs with
  | true => exact ⟨h.ifmode, rfl, h.lost, _, rfl, hwire⟩
  | false =>
    exact ⟨(Lcd.command_ifmode ..).trans h.ifmode, Lcd.command_phase .., (Lcd.command_lost ..).trans h.lost, _,
      Lcd.command_wire .., hwire⟩

/-- The first nibble of a byte waits for the second. -/
theorem Lcd.latch_high (hmode : l.ifmode = .fourBit) (hphase : l.phase = .high) (n : Nibble) (rs : Bool) :
    l.latch n rs = { l with phase := .low, pending := some (n, rs) } := by
  simp [Lcd.latch, hmode, hphase]

/-- The second nibble completes the byte. -/
theorem Lcd.latch_low {m : Nibble} {rs : Bool} (hmode : l.ifmode = .fourBit) (hphase : l.phase = .low)
    (hpending : l.pending = some (m, rs)) (n : Nibble) : l.latch n rs = l.latchLow m rs n rs := by
  simp [Lcd.latch, hmode, hphase, hpending]

/-- The two pulses of a byte have the byte's effect. -/
theorem Lcd.InStep.ran_byte (h : l.InStep p.enMask) (rs : Bool) (b : Byte) :
    Lcd.ran p.enMask l (unitActions p (withRs rs (hi b)) (withRs rs (lo b))) = l.sent rs b := by
  rw [unitActions, Lcd.ran_append, Lcd.ran_nibbleActions h.lost (isFrameValue_withRs_hi rs b), rsOf_withRs_hi,
    frameNibble_withRs_hi, Lcd.latch_high (by exact h.ifmode) (by exact h.phase),
    Lcd.ran_nibbleActions (by exact h.lost) (isFrameValue_withRs_lo rs b), rsOf_withRs_lo, frameNibble_withRs_lo,
    Lcd.latch_low (by exact h.ifmode) rfl rfl]
  cases rs with
  | true => rfl
  | false => simp [Lcd.latchLow, byteHigh_append_byteLow, Lcd.sent, Lcd.betweenBytes]

theorem Lcd.InStep.ran_commandActions (h : l.InStep p.enMask) (b : Byte) :
    Lcd.ran p.enMask l (commandActions p b.toNat) = l.sent false b := by
  rw [← acts_commandSeq, commandSeq, acts_byteSeq, h.ran_byte]

theorem Lcd.InStep.ran_dataActions (h : l.InStep p.enMask) (b : Byte) :
    Lcd.ran p.enMask l (dataActions p b.toNat) = l.sent true b := by
  rw [← acts_dataSeq, dataSeq, acts_byteSeq, h.ran_byte]

theorem Lcd.InStep.ran_clearActions (h : l.InStep p.enMask) :
    Lcd.ran p.enMask l (clearActions p) = l.sent false Config.cmdClear := by
  rw [clearActions, Lcd.ran_append_delay]
  exact h.ran_byte false Config.cmdClear

theorem Lcd.InStep.ran_homeActions (h : l.InStep p.enMask) :
    Lcd.ran p.enMask l (homeActions p) = l.sent false Config.cmdHome := by
  rw [homeActions, Lcd.ran_append_delay]
  exact h.ran_byte false Config.cmdHome

theorem Lcd.InStep.ran_charActions (h : l.InStep p.enMask) (c : Nat) :
    Lcd.ran p.enMask l (dataActions p (c % 256)) = l.sent true (charByte c) := by
  rw [← h.ran_dataActions]
  simp [charByte]

/-- A string leaves the controller in step, keeps lines and display, and forgets the cursor if it has a character or
there was nothing to forget. -/
theorem Lcd.InStep.ran_stringActions (h : l.InStep p.enMask) (cs : List Nat) :
    (Lcd.ran p.enMask l (stringActions p cs)).InStep p.enMask ∧
    (cs ≠ [] ∨ l.cursor = none → (Lcd.ran p.enMask l (stringActions p cs)).cursor = none) ∧
    (Lcd.ran p.enMask l (stringActions p cs)).lines = l.lines ∧
    (Lcd.ran p.enMask l (stringActions p cs)).display = l.display := by
  induction cs generalizing l with
  | nil => exact ⟨h, fun hcursor => hcursor.resolve_left (· rfl), rfl, rfl⟩
  | cons c cs ih =>
    rw [stringActions_cons, Lcd.ran_append, h.ran_charActions]
    obtain ⟨hstep, hcursor, hlines, hdisplay⟩ := ih (h.sent true (charByte c))
    exact ⟨hstep, fun _ => hcursor (.inr rfl), hlines, hdisplay⟩

/-! ### The bring-up downstream (R69, R89) -/

/-- Before 4-bit mode every nibble latched is a raw one. -/
theorem Lcd.latch_raw (hmode : l.ifmode = .unknown) (n : Nibble) (rs : Bool) : l.latch n rs = l.latchRaw n rs := by
  simp [Lcd.latch, hmode]

/-- A raw 0x3 is counted (R89's first row). -/
theorem Lcd.ran_rawInit8 (hmode : l.ifmode = .unknown) (hlost : l.lost = false) :
    Lcd.ran p.enMask l (acts (rawInit8Seq p)) = { l with wire := some 0x30, raws := min 3 (l.raws + 1) } := by
  rw [acts_rawInit8Seq, Lcd.ran_append_delay, Lcd.ran_nibbleActions hlost (by decide), Lcd.latch_raw (by exact hmode)]
  rfl

/-- A raw 0x2 after three raw 0x3 commits the controller to 4-bit mode (R89's first row). -/
theorem Lcd.ran_rawInit4 (hmode : l.ifmode = .unknown) (hlost : l.lost = false) (hraws : l.raws = 3) :
    Lcd.ran p.enMask l (acts (rawInit4Seq p)) =
      { l with wire := some 0x20, ifmode := .fourBit, phase := .high, raws := 0 } := by
  rw [acts_rawInit4Seq, Lcd.ran_nibbleActions hlost (by decide), Lcd.latch_raw (by exact hmode)]
  have hcommits : frameNibble 0x20 = Config.nibInit4Bit ∧ l.raws = Config.initRepeat := ⟨rfl, hraws⟩
  exact if_pos hcommits

/-- The raw part of the bring-up commits the controller to 4-bit mode, however many raw nibbles it had seen before. -/
theorem Lcd.ran_bringUpRaw (hmode : l.ifmode = .unknown) (hlost : l.lost = false) :
    Lcd.ran p.enMask l (acts (bringUpRaw p)) =
      { l with wire := some 0x20, ifmode := .fourBit, phase := .high, raws := 0 } := by
  have hparts : acts (bringUpRaw p) = .delay p.tPowerOn :: (acts (rawInit8Seq p) ++ (acts (rawInit8Seq p) ++
      (acts (rawInit8Seq p) ++ acts (rawInit4Seq p)))) := rfl
  rw [hparts, Lcd.ran, Lcd.ran_append, Lcd.ran_rawInit8 hmode hlost, Lcd.ran_append,
    Lcd.ran_rawInit8 (by exact hmode) (by exact hlost), Lcd.ran_append,
    Lcd.ran_rawInit8 (by exact hmode) (by exact hlost),
    Lcd.ran_rawInit4 (by exact hmode) (by exact hlost) (by dsimp only; omega)]

/-- The bytes of the bring-up, from a controller in step (R69 steps 5 to 8). -/
theorem Lcd.InStep.ran_bringUpBytes (h : l.InStep p.enMask) :
    Lcd.ran p.enMask l (acts (bringUpBytes p)) =
      (((l.sent false Config.cmdFunctionSet2Line).sent false Config.cmdDisplayOn).sent false Config.cmdClear).sent false
        Config.cmdHome := by
  have hfunction := h.sent false Config.cmdFunctionSet2Line
  have hon := hfunction.sent false Config.cmdDisplayOn
  have hclear := hon.sent false Config.cmdClear
  rw [bringUpBytes, acts_append, acts_append, acts_append, acts_commandSeq, acts_commandSeq, acts_clearSeq,
    acts_homeSeq, Lcd.ran_append, h.ran_commandActions, Lcd.ran_append, hfunction.ran_commandActions, Lcd.ran_append,
    hon.ran_clearActions, hclear.ran_homeActions]

/-- What a whole bring-up leaves downstream, from a controller not yet in 4-bit mode. -/
theorem Lcd.ran_initializeActions (hmode : l.ifmode = .unknown) (hlost : l.lost = false) :
    (Lcd.ran p.enMask l (initializeActions p)).InStep p.enMask ∧
    (Lcd.ran p.enMask l (initializeActions p)).lines = .two ∧
    (Lcd.ran p.enMask l (initializeActions p)).display = .on ∧
    (Lcd.ran p.enMask l (initializeActions p)).cursor = some 0x00 ∧
    (Lcd.ran p.enMask l (initializeActions p)).content = .blank := by
  have hcommitted : Lcd.InStep p.enMask
      { l with wire := some 0x20, ifmode := .fourBit, phase := .high, raws := 0 } :=
    ⟨rfl, rfl, hlost, _, rfl, enAsserted_of_isFrameValue _ (by decide)⟩
  rw [initializeActions_eq, acts_append, Lcd.ran, Lcd.ran_append, Lcd.ran_bringUpRaw hmode hlost,
    hcommitted.ran_bringUpBytes]
  exact ⟨(((hcommitted.sent _ _).sent _ _).sent _ _).sent _ _, rfl, rfl, rfl, rfl⟩

end Downstream

/-- Settles O54: the bring-up runs its printed list to its end, and that list's writes commit the controller. -/
theorem bringUpCommitsTheController : Obligations.BringUpCommitsTheController := by
  intro s t hidle hstart hok hmode hlost hexec
  obtain ⟨c, hfirst⟩ := hok 0 (by decide)
  rw [initializeBringsUp s c hidle hstart hfirst hok] at hexec
  cases hexec
  rw [State.inStep_iff]
  exact Lcd.ran_initializeActions hmode hlost

/-! ### Requests and units downstream (R89) -/

/-- From `s` to `t` the controller took the whole byte `b` with that RS, and is in step. -/
structure State.Sends (rs : Bool) (b : Byte) (s t : State) : Prop where
  inStep : t.inStep
  lcd    : t.lcd = s.lcd.sent rs b

section Sends
variable {s t : State}

/-- What completes with a list that acts downstream as one byte does sends that byte. -/
theorem State.sends_of_exec {i : Instr} {L : List Action} {rs : Bool} {b : Byte} (hstep : s.inStep)
    (hran : Lcd.ran s.cfg.enMask s.lcd L = s.lcd.sent rs b) (hexec : exec i s = .next (s.ran L .ok))
    (h : exec i s = .next t) : s.Sends rs b t := by
  obtain rfl : t = s.ran L .ok := Host.Outcome.next.inj (h.symm.trans hexec)
  have hlcd : (s.ran L .ok).lcd = s.lcd.sent rs b := hran
  have hin : (s.lcd.sent rs b).InStep s.cfg.enMask := ((State.inStep_iff s).mp hstep).sent rs b
  exact ⟨(State.inStep_iff _).mpr (hlcd ▸ hin), hlcd⟩

/-- R89's row of command 0x28. -/
theorem State.Sends.functionSet (h : s.Sends false Config.cmdFunctionSet2Line t) :
    t.inStep ∧ t.lcd.lines = .two ∧ t.lcd.display = s.lcd.display ∧ t.lcd.cursor = s.lcd.cursor ∧
      t.lcd.content = s.lcd.content :=
  ⟨h.inStep, h.lcd ▸ ⟨rfl, rfl, rfl, rfl⟩⟩

/-- R89's row of command 0x0C. -/
theorem State.Sends.displayOn (h : s.Sends false Config.cmdDisplayOn t) :
    t.inStep ∧ t.lcd.display = .on ∧ t.lcd.lines = s.lcd.lines ∧ t.lcd.cursor = s.lcd.cursor ∧
      t.lcd.content = s.lcd.content :=
  ⟨h.inStep, h.lcd ▸ ⟨rfl, rfl, rfl, rfl⟩⟩

/-- R89's row of command 0x01. -/
theorem State.Sends.clear (h : s.Sends false Config.cmdClear t) :
    t.inStep ∧ t.lcd.cursor = some 0x00 ∧ t.lcd.content = .blank ∧ t.lcd.lines = s.lcd.lines ∧
      t.lcd.display = s.lcd.display :=
  ⟨h.inStep, h.lcd ▸ ⟨rfl, rfl, rfl, rfl⟩⟩

/-- R89's row of command 0x02. -/
theorem State.Sends.home (h : s.Sends false Config.cmdHome t) :
    t.inStep ∧ t.lcd.cursor = some 0x00 ∧ t.lcd.content = s.lcd.content ∧ t.lcd.lines = s.lcd.lines ∧
      t.lcd.display = s.lcd.display :=
  ⟨h.inStep, h.lcd ▸ ⟨rfl, rfl, rfl, rfl⟩⟩

/-- R89's row of set-address. -/
theorem State.Sends.setAddr {a : BitVec 7} (h : s.Sends false (setAddrByte (a.setWidth 8)) t) :
    t.inStep ∧ t.lcd.cursor = some a ∧ t.lcd.content = s.lcd.content ∧ t.lcd.lines = s.lcd.lines ∧
      t.lcd.display = s.lcd.display := by
  have hlcd := h.lcd.trans (Lcd.command_setAddrByte a _)
  exact ⟨h.inStep, hlcd ▸ ⟨rfl, rfl, rfl, rfl⟩⟩

/-- R89's row of a data byte. -/
theorem State.Sends.data {d : Byte} (h : s.Sends true d t) :
    t.inStep ∧ t.lcd.cursor = none ∧ t.lcd.lines = s.lcd.lines ∧ t.lcd.display = s.lcd.display :=
  ⟨h.inStep, h.lcd ▸ ⟨rfl, rfl, rfl⟩⟩

end Sends

/-- The command byte of a valid cell sets its DDRAM address (R46, R85). -/
theorem cursorActions_eq_setAddr (p : Params) {row col : Int} (hrow : row = 0 ∨ row = 1) (hlow : 0 ≤ col)
    (hhigh : col ≤ 15) :
    cursorActions p row col = commandActions p
      (setAddrByte ((BitVec.ofNat 7 (col.toNat + (if row = 0 then 0x00 else 0x40))).setWidth 8)).toNat := by
  rw [cursorActions, setAddrByte_toNat, BitVec.toNat_ofNat]
  congr 1
  obtain rfl | rfl := hrow
  · rw [if_pos rfl, if_pos rfl]; omega
  · rw [if_neg one_ne_zero, if_neg one_ne_zero]; omega

/-- Settles O55: each request runs its printed list, which acts as its one byte, or as the string's data bytes in
turn. -/
theorem displayRequestsHaveTheirDownstreamEffect : Obligations.DisplayRequestsHaveTheirDownstreamEffect := by
  intro s hidle hready hok hstep
  have hlcd : s.lcd.InStep s.cfg.enMask := (State.inStep_iff s).mp hstep
  have hsends {i : Instr} {L : List Action} {rs : Bool} {b : Byte} {t : State}
      (hL : displayActions s.cfg i = some L) (hcalls : calls L = 4)
      (hran : Lcd.ran s.cfg.enMask s.lcd L = s.lcd.sent rs b) (h : exec i s = .next t) : s.Sends rs b t :=
    State.sends_of_exec hstep hran (exec_display_of_okCalls hidle hready hL (hcalls ▸ hok)) h
  have hstring {cs : List Nat} {t : State} (hcs : ∀ c ∈ cs, c ≤ 0x10FFFF) (hcalls : s.okCalls (4 * cs.length))
      (h : exec (.writeString cs) s = .next t) : t = s.ran (stringActions s.cfg cs) .ok :=
    Host.Outcome.next.inj (h.symm.trans (writeStringCompletes s cs hidle hready hcalls hcs))
  refine ⟨fun t h => ?_, fun t h => ?_, fun row col t hrow hlow hhigh h => ?_, fun c t hc h => ?_,
    fun cs t hne hcs hcalls h => ?_, fun t h => ?_⟩
  · exact (hsends rfl rfl hlcd.ran_clearActions h).clear
  · exact (hsends rfl rfl hlcd.ran_homeActions h).home
  · have hbyte := hlcd.ran_commandActions
      (setAddrByte ((BitVec.ofNat 7 (col.toNat + (if row = 0 then 0x00 else 0x40))).setWidth 8))
    rw [← cursorActions_eq_setAddr s.cfg hrow hlow hhigh] at hbyte
    exact (hsends (displayActions_setCursor s.cfg hrow hlow hhigh) rfl hbyte h).setAddr
  · exact (hsends (displayActions_writeChar s.cfg hc) rfl (hlcd.ran_charActions c) h).data
  · obtain ⟨hin, hcursor, hkeeps⟩ := hlcd.ran_stringActions cs
    rw [hstring hcs hcalls h, State.inStep_iff]
    exact ⟨hin, hcursor (.inl hne), hkeeps⟩
  · rw [hstring (List.forall_mem_nil _) (State.okCalls_mono hok (Nat.zero_le 4)) h]
    rfl

/-- Settles O56: each unit and primitive runs its printed list, which acts as its one byte. -/
theorem unitsHaveTheirDownstreamEffect : Obligations.UnitsHaveTheirDownstreamEffect := by
  intro s hidle hwrite hok hstep
  have hlcd : s.lcd.InStep s.cfg.enMask := (State.inStep_iff s).mp hstep
  have hsends {i : Instr} {L : List Action} {rs : Bool} {b : Byte} {t : State}
      (hL : internalActions s.cfg i = some L) (hcalls : calls L = 4)
      (hran : Lcd.ran s.cfg.enMask s.lcd L = s.lcd.sent rs b) (h : exec i s = .next t) : s.Sends rs b t :=
    State.sends_of_exec hstep hran (exec_internal_of_okCalls hidle hwrite hL (hcalls ▸ hok)) h
  refine ⟨fun t h => ?_, fun t h => ?_, fun t h => ?_, fun t h => ?_, fun a t h => ?_, fun d t h => ?_, fun b t h => ?_⟩
  · exact (hsends rfl rfl (hlcd.ran_commandActions Config.cmdFunctionSet2Line) h).functionSet
  · exact (hsends rfl rfl (hlcd.ran_commandActions Config.cmdDisplayOn) h).displayOn
  · exact (hsends rfl rfl hlcd.ran_clearActions h).clear
  · exact (hsends rfl rfl hlcd.ran_homeActions h).home
  · refine (hsends rfl rfl ?_ h).setAddr
    rw [← setAddrByte_toNat, hlcd.ran_commandActions]
  · exact h.elim (fun h => (hsends rfl rfl (hlcd.ran_dataActions d) h).data)
      (fun h => (hsends rfl rfl (hlcd.ran_dataActions d) h).data)
  · exact (hsends rfl rfl (hlcd.ran_commandActions b) h).inStep

end Sys2Proof.Machine

/-! PROOFS. Family 60_exceptions.md: the three errors of a request (R90 to R93, R97), and the wait for the next one
(R99). -/

namespace Sys2Proof.Machine

/-! ### Waiting for a request, and the guard of the display requests -/

theorem step_of_idle {s : State} (hf : s.inFlight = none) (hport : s.port = []) : step s = .next s := by
  simp [step, State.fetch, hf, hport]

/-- Settles O9: nothing is in flight and nothing is fetched. -/
theorem stepWaitsForARequest : Obligations.StepWaitsForARequest := fun _ => step_of_idle

/-- A well-formed display request outside `Ready` ends at its guard, before its arguments are looked at (R68, R97). -/
theorem exec_display_of_not_ready {i : Instr} {s : State} (hi : isDisplayRequest i = true) (hwf : i.wellFormed = true)
    (hidle : s.inFlight = none) (hl : s.lifecycle ≠ .ready) : exec i s = .next (s.raise (.stateError s.lifecycle)) := by
  have hp : permitted i s = false := Bool.eq_false_iff.mpr fun h => hl (permitted_ready hi h)
  have hguard {body : State → State} : accepting i body s = .next (s.raise (.stateError s.lifecycle)) :=
    accepting_of_not_permitted hidle hp
  cases i
  case clear | home | setCursor => simp only [exec]; exact hguard
  case writeChar c => exact (refusingCodePoints_of_all (by simpa [Instr.wellFormed] using hwf)).trans hguard
  case writeString cs => exact (refusingCodePoints_of_all hwf).trans hguard
  all_goals cases hi

/-- Settles O30: the guard of a display request is `Ready`. -/
theorem displayRequestOutsideReadyIsStateError : Obligations.DisplayRequestOutsideReadyIsStateError :=
  fun _ _ => exec_display_of_not_ready

/-! ### What a list can end with -/

/-- A list ends with no response but `Ok` and `TransportError` (R28, R91). -/
theorem response_of_conclude_runFrom {req : Instr} {list rest : List Slot} {seq : Nat} {s : State} {evs : List Event}
    {r : Response} (h : (conclude req list (runFrom rest seq s)).trace = s.trace ++ evs ++ [.response r]) :
    r = .ok ∨ ∃ e, r = .err (.transportError e) := by
  have hrun : s.SameBlock (runFrom rest seq s).state := runFrom_sameBlock rest seq s
  have hlast {tr : List Event} {r' : Response} (ht : tr ++ [.response r'] = s.trace ++ evs ++ [.response r]) :
      r = r' := by
    simpa using (List.append_inj' ht rfl).2.symm
  obtain ⟨u, hend, heq⟩ | ⟨e, u, hend, heq⟩ | ⟨k, dp, u, hend, heq⟩ :=
    conclude_cases req list (runFrom rest seq s) <;> rw [heq] at h
  · exact .inl (hlast h)
  · exact .inr ⟨e, hlast h⟩
  · obtain ⟨ev, htrace, -, hnone⟩ := hrun.trace
    rw [hend] at htrace
    have hev : ev = evs ++ [.response r] := by simpa [List.append_assoc] using htrace.symm.trans h
    simp [hev, responses] at hnone

/-- Settles O24: a list never ends with `ValidationError`, so the response was given at once; and only `setCursor` gives
it. -/
theorem onlySetCursorRaisesValidationError : Obligations.OnlySetCursorRaisesValidationError := by
  intro i s t evs row col hexec htrace
  obtain ⟨-, ⟨r, rfl, hown⟩ | ⟨-, -, rfl⟩ | ⟨-, -, -, L, -, rfl⟩⟩ := exec_cases hexec
  · rw [State.respond_trace] at htrace
    obtain ⟨htr, hr⟩ := List.append_inj' htrace rfl
    obtain rfl : evs = [] := by simpa using htr
    obtain rfl : r = .err (.validationError row col) := by simpa using hr
    obtain ⟨hi, hcell⟩ := hown
    exact ⟨hi, hcell, rfl, rfl⟩
  · obtain h | ⟨e, h⟩ := response_of_conclude_runFrom (s := { s with lifecycle := .bootstrapping }) htrace <;> cases h
  · obtain h | ⟨e, h⟩ := response_of_conclude_runFrom htrace <;> cases h

/-! ### Events that tell of no failing call -/

/-- Does this entry tell of no failing call: neither the event of one nor the response to one (R91)? -/
def Event.unfailed : Event → Bool
  | .connect _ _ (.ok _) => true
  | .connect _ _ (.err _) => false
  | .write _ _ _ .ok => true
  | .write _ _ _ (.err _) => false
  | .delay _ => true
  | .response .ok => true
  | .response (.okName _) => true
  | .response (.err (.transportError _)) => false
  | .response (.err (.validationError _ _)) => true
  | .response (.err (.stateError _)) => true

theorem State.okEvent_unfailed (s : State) (h : Handle) (a : Action) : (s.okEvent h a).unfailed = true := by
  cases a <;> rfl

theorem State.errEvent_not_unfailed (s : State) (e : BusError) {a : Action} (ha : a.isCall = true) :
    (s.errEvent e a).unfailed = false := by
  cases a with
  | delay t => cases ha
  | connect => rfl
  | write v => rfl

/-- The event of a failing call shows its error (R91). -/
theorem State.errEvent_inj {s : State} {e e' : BusError} {a a' : Action} (ha : a.isCall = true)
    (h : s.errEvent e a = s.errEvent e' a') : e = e' := by
  cases a with
  | delay t => cases ha
  | connect => cases a' <;> cases h; rfl
  | write v => cases a' <;> cases h; rfl

theorem State.errEvent_ne_response (s : State) (e : BusError) (a : Action) (r : Response) :
    s.errEvent e a ≠ .response r := by
  cases a <;> nofun

theorem ownResponse_unfailed {i : Instr} {r : Response} (h : ownResponse i r) : (Event.response r).unfailed = true := by
  obtain _ | _ | e := r
  · rfl
  · rfl
  · cases e with
    | transportError e => cases h
    | validationError row col => rfl
    | stateError l => rfl

/-- A list that ran to its end added events of completed actions only. -/
theorem runFrom_done_trace {L : List Slot} {q : Nat} {s u : State} (h : runFrom L q s = .done u) :
    ∃ evs, u.trace = s.trace ++ evs ∧ ∀ x ∈ evs, x.unfailed = true := by
  induction L generalizing q s with
  | nil => cases h; exact ⟨[], by simp⟩
  | cons a rest ih =>
    unfold runFrom at h
    cases hi : s.issue a.act with
    | ok t =>
      rw [hi] at h
      obtain ⟨c, ht⟩ := State.issue_ok_trace hi
      obtain ⟨evs, hu, hevs⟩ := ih h
      exact ⟨s.okEvent c a.act :: evs, by simp [hu, ht], List.forall_mem_cons.mpr ⟨s.okEvent_unfailed c a.act, hevs⟩⟩
    | err e t => rw [hi] at h; cases h
    | blocked => rw [hi] at h; cases h

/-- Only a call of the transport fails: a `Delay` always completes (R38). -/
theorem State.issue_err_isCall {s t : State} {a : Action} {e : BusError} (h : s.issue a = .err e t) :
    a.isCall = true := by
  cases a with
  | delay d => cases h
  | connect => rfl
  | write v => rfl

/-- A run that failed did so at one of its calls, having run what stands before it. -/
theorem runFrom_failed_inv {L : List Slot} {q : Nat} {s u : State} {e : BusError} (h : runFrom L q s = .failed e u) :
    ∃ pre x w, runFrom pre q s = .done w ∧ w.issue x = .err e u := by
  induction L generalizing q s with
  | nil => cases h
  | cons a rest ih =>
    unfold runFrom at h
    cases hi : s.issue a.act with
    | ok t =>
      rw [hi] at h
      obtain ⟨pre, x, w, hpre, hx⟩ := ih h
      exact ⟨a :: pre, x, w, by simpa [runFrom, hi] using hpre, hx⟩
    | err e' t => rw [hi] at h; cases h; exact ⟨[], a.act, s, rfl, hi⟩
    | blocked => rw [hi] at h; cases h

/-- A run that failed added events of completed actions, and after them the event of its failing call. -/
theorem runFrom_failed_trace {L : List Slot} {q : Nat} {s u : State} {e : BusError} (h : runFrom L q s = .failed e u) :
    ∃ evs a, a.isCall = true ∧ u.trace = s.trace ++ evs ++ [s.errEvent e a] ∧ ∀ x ∈ evs, x.unfailed = true := by
  obtain ⟨pre, a, w, hpre, ha⟩ := runFrom_failed_inv h
  obtain ⟨evs, hw, hevs⟩ := runFrom_done_trace hpre
  have hblock : s.SameBlock w := by simpa [hpre] using runFrom_sameBlock pre q s
  exact ⟨evs, a, State.issue_err_isCall ha,
    by rw [State.issue_err_trace ha, hw, State.errEvent_congr hblock.addr hblock.bus], hevs⟩

/-! ### A failing call ends its request -/

section EndsAtFailure
variable {req : Instr} {s t : State} {evs : List Event}

/-- A request that added no sign of a failing call meets R91. -/
theorem State.endsAtFailure_of_unfailed (htrace : t.trace = s.trace ++ evs) (hevs : ∀ x ∈ evs, x.unfailed = true) :
    s.endsAtFailure req t := by
  refine ⟨fun pre post e a ha h => ?_, fun evs' e h => ?_⟩
  · have hev : evs = pre ++ s.errEvent e a :: post := by simpa [htrace] using h
    have hok := hevs (s.errEvent e a) (by simp [hev])
    simp [s.errEvent_not_unfailed e ha] at hok
  · have hev : evs = evs' ++ [.response (.err (.transportError e))] := by simpa [htrace] using h
    have hok := hevs (.response (.err (.transportError e))) (by simp [hev])
    cases hok

/-- An event of a failing call in a trace that ends at its first one is that one. -/
theorem State.errEvent_unique {pre post : List Event} {e e' : BusError} {a a' : Action} {r : Response}
    (ha : a.isCall = true) (hevs : ∀ x ∈ evs, x.unfailed = true)
    (h : evs ++ [s.errEvent e' a', .response r] = pre ++ s.errEvent e a :: post) : e = e' ∧ post = [.response r] := by
  induction evs generalizing pre with
  | nil =>
    cases pre with
    | nil =>
      obtain ⟨hevent, hpost⟩ := List.cons.inj h
      exact ⟨State.errEvent_inj ha hevent.symm, hpost.symm⟩
    | cons x pre =>
      obtain ⟨-, h⟩ := List.cons.inj h
      have hmem : s.errEvent e a ∈ [Event.response r] := by rw [h]; simp
      exact absurd (List.mem_singleton.mp hmem) (s.errEvent_ne_response e a r)
  | cons y evs ih =>
    obtain ⟨hy, hevs⟩ := List.forall_mem_cons.mp hevs
    cases pre with
    | nil =>
      obtain ⟨rfl, -⟩ := List.cons.inj h
      simp [s.errEvent_not_unfailed e ha] at hy
    | cons x pre => exact ih hevs (List.cons.inj h).2

/-- A request that added the event of one failing call, and after it the response to it, meets R91. -/
theorem State.endsAtFailure_of_failed {a : Action} {e : BusError} (ha : a.isCall = true)
    (hevs : ∀ x ∈ evs, x.unfailed = true)
    (htrace : t.trace = s.trace ++ evs ++ [s.errEvent e a, .response (.err (.transportError e))])
    (hinit : req = .initializeReq → t.lifecycle = .failed)
    (hother : req ≠ .initializeReq → t.lifecycle = s.lifecycle) : s.endsAtFailure req t := by
  refine ⟨fun pre post e' a' ha' h => ?_, fun evs' e' h => ?_⟩
  · obtain ⟨rfl, hpost⟩ := State.errEvent_unique ha' hevs (by simpa [htrace] using h)
    exact ⟨hpost, hinit, hother⟩
  · have hev : evs ++ [s.errEvent e a] ++ [.response (.err (.transportError e))] =
        evs' ++ [.response (.err (.transportError e'))] := by simpa [htrace] using h
    obtain ⟨hpre, hlast⟩ := List.append_inj' hev rfl
    obtain rfl : e = e' := by simpa using hlast
    exact ⟨evs, a, ha, hpre.symm⟩

/-- A bring-up that meets R91 as run in `Bootstrapping` meets it as the request made before: R91 asks nothing of the
lifecycle that an `initialize` found. -/
theorem State.endsAtFailure_of_bootstrapping
    (h : { s with lifecycle := .bootstrapping }.endsAtFailure .initializeReq t) :
    s.endsAtFailure .initializeReq t := by
  obtain ⟨hcall, hresponse⟩ := h
  refine ⟨fun pre post e a ha htrace => ?_, hresponse⟩
  obtain ⟨hpost, hfailed, -⟩ := hcall pre post e a ha htrace
  exact ⟨hpost, hfailed, fun hne => absurd rfl hne⟩

end EndsAtFailure

/-- However a list ends, its request meets R91. -/
theorem endsAtFailure_conclude_runFrom (req : Instr) (list rest : List Slot) (seq : Nat) (s : State) :
    s.endsAtFailure req (conclude req list (runFrom rest seq s)) := by
  have hrun : s.SameBlock (runFrom rest seq s).state := runFrom_sameBlock rest seq s
  obtain ⟨u, hend, heq⟩ | ⟨e, u, hend, heq⟩ | ⟨k, dp, u, hend, heq⟩ :=
    conclude_cases req list (runFrom rest seq s) <;> rw [heq]
  · obtain ⟨evs, htrace, hevs⟩ := runFrom_done_trace hend
    refine State.endsAtFailure_of_unfailed (evs := evs ++ [.response .ok]) (by simp [htrace]) ?_
    exact List.forall_mem_append.mpr ⟨hevs, List.forall_mem_singleton.mpr rfl⟩
  · obtain ⟨evs, a, ha, htrace, hevs⟩ := runFrom_failed_trace hend
    refine State.endsAtFailure_of_failed (e := e) ha hevs (by simp [htrace]) (fun hreq => by simp [hreq]) fun hreq => ?_
    rw [State.settleLifecycle_of_ne _ _ _ hreq]
    simpa [hend] using hrun.lifecycle
  · obtain ⟨pre, -, -, -, -, -, -, -, hdone⟩ := runFrom_blocked_inv hend
    obtain ⟨evs, htrace, hevs⟩ := runFrom_done_trace hdone
    exact State.endsAtFailure_of_unfailed htrace hevs

/-- Settles O50: a response given at once answers no failing call; and a list stops at the first one, with its response
after it. -/
theorem failingCallEndsTheRequest : Obligations.FailingCallEndsTheRequest := by
  refine fun s t => ⟨fun i hexec => ?_, fun f hf hstep => ?_⟩
  · obtain ⟨-, ⟨r, rfl, hown⟩ | ⟨rfl, -, rfl⟩ | ⟨-, -, -, L, -, rfl⟩⟩ := exec_cases hexec
    · have hr : ∀ x ∈ [Event.response r], x.unfailed = true := List.forall_mem_singleton.mpr (ownResponse_unfailed hown)
      exact State.endsAtFailure_of_unfailed (s.respond_trace r) hr
    · exact State.endsAtFailure_of_bootstrapping (endsAtFailure_conclude_runFrom _ _ _ 0 _)
    · exact endsAtFailure_conclude_runFrom i L L 0 s
  · obtain ⟨g, hg, rfl⟩ | ⟨hidle, -⟩ | ⟨hidle, -⟩ := step_cases hstep
    · obtain rfl : g = f := by simpa [hf] using hg.symm
      exact endsAtFailure_conclude_runFrom g.req g.list _ g.seq { s with inFlight := none }
    · simp [hf] at hidle
    · simp [hf] at hidle

end Sys2Proof.Machine

/-! PROOFS. Family 70_reset_and_hazards.md: the framing of the trace (R110, R111), an invalid `setCursor` (R116), what is
known of the display before bring-up and after an error (R109, R114), and nominal counts and delays (R117). -/

namespace Sys2Proof.Machine

/-! ### Following a trace -/

section Framing
variable {p : Params} {q : Framing}

theorem framingFrom_append (A B : List Event) :
    framingFrom p q (A ++ B) = (framingFrom p q A).bind fun q' => framingFrom p q' B := by
  induction A generalizing q with
  | nil => rfl
  | cons e A ih =>
    simp only [List.cons_append, framingFrom]
    cases Framing.next p q e with
    | none => rfl
    | some q' => exact ih

theorem framingFrom_singleton (e : Event) : framingFrom p q [e] = Framing.next p q e := by
  rw [framingFrom]
  cases Framing.next p q e <;> rfl

/-- A list of events that may come begins with one that may. -/
theorem framingFrom_cons_eq_some {e : Event} {A : List Event} {r : Framing} :
    framingFrom p q (e :: A) = some r ↔ ∃ q', Framing.next p q e = some q' ∧ framingFrom p q' A = some r := by
  rw [framingFrom]
  cases Framing.next p q e <;> simp

/-- The framing does not read the handle of a `Connect`. -/
theorem Framing.next_okEvent (s : State) (h : Handle) (a : Action) :
    Framing.next p q (s.okEvent h a) = Framing.next p q (s.okEvent 0 a) := by
  cases a with
  | connect => cases q <;> rfl
  | write v => rfl
  | delay t => rfl

/-- Where a call may come it may fail, and then its `TransportError` may come and leads between pulses (R91). -/
theorem Framing.next_errEvent {q' : Framing} (s : State) (e : BusError) {a : Action} (ha : a.isCall = true)
    (h : Framing.next p q (s.okEvent 0 a) = some q') :
    framingFrom p q [s.errEvent e a, .response (.err (.transportError e))] = some .between := by
  cases a with
  | delay t => cases ha
  | connect =>
    cases q with
    | between => rfl
    | enHigh v | pulsed v | latched | failedWrite => cases h
  | write w =>
    have hfailed : Framing.next p q (s.errEvent e (.write w)) = some .failedWrite := by
      cases q with
      | between | pulsed v =>
        simp only [State.okEvent, Framing.next, Option.ite_none_right_eq_some] at h
        exact if_pos h.1
      | enHigh v | latched | failedWrite => cases h
    exact framingFrom_cons_eq_some.mpr ⟨_, hfailed, rfl⟩

end Framing

/-! ### Lists that keep a trace framed -/

/-- The trace of `s` is framed so far, and the events of `L`, once all of it has completed, lead between pulses. -/
def State.FramedAhead (s : State) (L : List Slot) : Prop :=
  ∃ q, framingFrom s.cfg .between s.trace = some q ∧
    framingFrom s.cfg q (L.map fun a => s.okEvent 0 a.act) = some .between

section FramedAhead
variable {s t : State} {a : Slot} {L : List Slot}

theorem State.framedAhead_nil : s.FramedAhead [] ↔ framingFrom s.cfg .between s.trace = some .between :=
  ⟨fun ⟨_, htrace, hend⟩ => htrace.trans hend, fun h => ⟨_, h, rfl⟩⟩

theorem State.framed_of_idle (hactions : s.cfg.shutdownActions = []) (hidle : s.inFlight = none)
    (h : s.FramedAhead []) : s.Framed := by
  refine ⟨hactions, ?_⟩
  rw [hidle]
  exact State.framedAhead_nil.mp h

theorem State.framedAhead_of_framed (hidle : s.inFlight = none) (h : s.Framed) : s.FramedAhead [] := by
  obtain ⟨-, h⟩ := h
  rw [hidle] at h
  exact State.framedAhead_nil.mpr h

theorem State.framedAhead_of_inFlight {f : InFlight} (hf : s.inFlight = some f) (h : s.Framed) :
    s.FramedAhead (f.list.drop f.seq) := by
  obtain ⟨-, h⟩ := h
  rw [hf] at h
  exact h

/-- A response may come between pulses. -/
theorem State.FramedAhead.respond (h : s.FramedAhead []) (r : Response) : (s.respond r).FramedAhead [] := by
  rw [State.framedAhead_nil] at h ⊢
  rw [State.respond_cfg, State.respond_trace, framingFrom_append, h]
  rfl

/-- After an action that completed the rest of the list is ahead. -/
theorem State.FramedAhead.issue_ok (h : s.FramedAhead (a :: L)) (hi : s.issue a.act = .ok t) : t.FramedAhead L := by
  obtain ⟨q, htrace, hlist⟩ := h
  obtain ⟨q', hnext, hrest⟩ := framingFrom_cons_eq_some.mp hlist
  obtain ⟨c, hevent⟩ := State.issue_ok_trace hi
  have hblock : s.SameBlock t := State.issue_sameBlock (.inl hi)
  refine ⟨q', ?_, ?_⟩
  · rw [hblock.cfg, hevent, framingFrom_append, htrace, Option.bind_some, framingFrom_singleton,
      Framing.next_okEvent, hnext]
  · rw [hblock.cfg, State.okEvent_congr hblock.addr hblock.bus, hrest]

/-- After an action that failed its `TransportError` leads between pulses. -/
theorem State.FramedAhead.issue_err {e : BusError} (h : s.FramedAhead (a :: L)) (hi : s.issue a.act = .err e t) :
    (t.respond (.err (.transportError e))).FramedAhead [] := by
  obtain ⟨q, htrace, hlist⟩ := h
  obtain ⟨q', hnext, -⟩ := framingFrom_cons_eq_some.mp hlist
  have hblock : s.SameBlock t := State.issue_sameBlock (.inr ⟨e, hi⟩)
  rw [State.framedAhead_nil, State.respond_cfg, State.respond_trace, State.issue_err_trace hi, hblock.cfg,
    List.append_assoc, framingFrom_append, htrace]
  exact Framing.next_errEvent s e (State.issue_err_isCall hi) hnext

theorem State.FramedAhead.settleLifecycle {req : Instr} {l : Lifecycle} {r : Response}
    (h : (s.respond r).FramedAhead L) : ((s.settleLifecycle req l).respond r).FramedAhead L := by
  by_cases hreq : req = .initializeReq
  · subst hreq; exact h
  · rwa [State.settleLifecycle_of_ne _ _ _ hreq]

/-- However a list ends that has framed events ahead, its end is framed: it completes, fails at its next call, or waits
there. -/
theorem State.FramedAhead.conclude_framed {req : Instr} {list : List Slot} {seq : Nat}
    (h : s.FramedAhead (list.drop seq)) (hactions : s.cfg.shutdownActions = []) (hidle : s.inFlight = none) :
    (conclude req list (runFrom (list.drop seq) seq s)).Framed := by
  generalize hrest : list.drop seq = rest at h ⊢
  induction rest generalizing seq s with
  | nil =>
    exact State.framed_of_idle (by simpa [runFrom, conclude]) (by simpa [runFrom, conclude])
      (h.respond .ok).settleLifecycle
  | cons a rest ih =>
    rw [runFrom]
    cases hi : s.issue a.act with
    | ok t =>
      have hblock : s.SameBlock t := State.issue_sameBlock (.inl hi)
      have hdrop : list.drop (seq + 1) = rest := by rw [← List.drop_drop, hrest]; rfl
      exact ih (hblock.cfg ▸ hactions) (hblock.inFlight.trans hidle) hdrop (h.issue_ok hi)
    | err e t =>
      have hblock : s.SameBlock t := State.issue_sameBlock (.inr ⟨e, hi⟩)
      exact State.framed_of_idle (by simpa [conclude, State.raise_eq, hblock.cfg])
        (by simpa [conclude, State.raise_eq, hblock.inFlight]) (h.issue_err hi).settleLifecycle
    | blocked =>
      rw [← hrest] at h
      exact ⟨hactions, h⟩

end FramedAhead

/-! ### The lists of the machine keep a trace framed -/

/-- The events of `L`, once all of it has completed, lead from between pulses to between pulses. -/
def FramedList (p : Params) (L : List Slot) : Prop :=
  ∀ s : State, framingFrom p .between (L.map fun a => s.okEvent 0 a.act) = some .between

section FramedList
variable {p : Params} {L M : List Slot}

theorem FramedList.framedAhead {s : State} (hL : FramedList s.cfg L) (h : s.FramedAhead []) : s.FramedAhead L :=
  ⟨.between, State.framedAhead_nil.mp h, hL s⟩

theorem FramedList.append (hL : FramedList p L) (hM : FramedList p M) : FramedList p (L ++ M) := by
  intro s
  rw [List.map_append, framingFrom_append, hL s]
  exact hM s

theorem FramedList.cons_connect (dp : Datapath) (hL : FramedList p L) : FramedList p (⟨.connect, dp⟩ :: L) := hL

theorem FramedList.cons_wait (t : Nat) (dp : Datapath) (hL : FramedList p L) : FramedList p (waitSlot t dp :: L) := hL

/-- An EN-set frame drives no bit but the nibble, RS and EN (R56). -/
theorem enSet_drives_frame_bits (en : EnMask) {v : Byte} (h : isFrameValue v = true) :
    enSet en v &&& ~~~(0xF1 ||| en.mask) = 0 := by
  have hbits : ∀ v : Byte, isFrameValue v = true → enSet en v &&& ~~~(0xF1 ||| en.mask) = 0 := by cases en <;> decide
  exact hbits v h

/-- One enable pulse: EN set, the enable-pulse delay, EN clear on the same value, the settle delay (R76, R110, R111). -/
theorem pulse_framed (p : Params) {dp : Datapath} (h : isFrameValue dp.v = true) : FramedList p (pulse p dp) := by
  intro s
  have hset : Framing.next p .between (s.okEvent 0 (.write (enSet p.enMask dp.v))) =
      some (.enHigh (enClear p.enMask dp.v)) := by
    rw [← enClear_enSet]
    exact if_pos ⟨enSet_drives_frame_bits p.enMask h, enAsserted_enSet p.enMask dp.v⟩
  have hwait (v : Byte) : Framing.next p (.enHigh v) (.delay p.tEnPulse) = some (.pulsed v) := if_pos rfl
  have hclear (v : Byte) : Framing.next p (.pulsed v) (s.okEvent 0 (.write v)) = some .latched := if_pos rfl
  have hsettle : Framing.next p .latched (.delay p.tSettle) = some .between := if_pos rfl
  exact framingFrom_cons_eq_some.mpr ⟨_, hset, framingFrom_cons_eq_some.mpr ⟨_, hwait _,
    framingFrom_cons_eq_some.mpr ⟨_, hclear _, framingFrom_cons_eq_some.mpr ⟨_, hsettle, rfl⟩⟩⟩⟩

theorem SendsBytes.framed (h : SendsBytes p L) : FramedList p L := by
  induction h with
  | nil => exact fun _ => rfl
  | wait t dp _ ih => exact ih.cons_wait t dp
  | byte rs b _ ih =>
    exact ((pulse_framed p (isFrameValue_withRs_hi rs b)).append (pulse_framed p (isFrameValue_withRs_lo rs b))).append ih

theorem rawInit4Seq_framed (p : Params) : FramedList p (rawInit4Seq p) := pulse_framed p (by decide)

theorem rawInit8Seq_framed (p : Params) : FramedList p (rawInit8Seq p) :=
  FramedList.append (pulse_framed p (by decide)) fun _ => rfl

theorem bringUpSeq_framed (p : Params) : FramedList p (bringUpSeq p) := by
  have h8 := rawInit8Seq_framed p
  have hraw : FramedList p (bringUpRaw p) := by
    have hrepeat : FramedList p (List.replicate Config.initRepeat (rawInit8Seq p)).flatten :=
      h8.append (h8.append (h8.append fun _ => rfl))
    exact (hrepeat.append (rawInit4Seq_framed p)).cons_wait _ _
  rw [bringUpSeq_eq]
  exact (hraw.append (bringUpBytes_sendsBytes p).framed).cons_connect _

end FramedList

/-- What an instruction does from `s` to `t`: a response at once, or a list that keeps the trace framed. -/
def RespondsOrRunsFramed (i : Instr) (s t : State) : Prop :=
  (∃ r, t = s.respond r) ∨ ∃ l L, FramedList s.cfg L ∧ t = perform i L { s with lifecycle := l }

theorem accepting_runsFramed {i : Instr} {body : State → State} {s t : State} (h : accepting i body s = .next t)
    (hbody : RespondsOrRunsFramed i s (body s)) : RespondsOrRunsFramed i s t := by
  obtain ⟨-, ⟨-, rfl⟩ | ⟨-, rfl⟩⟩ := accepting_next h
  · exact hbody
  · exact .inl ⟨_, rfl⟩

/-- A decoded instruction runs framed lists, where `shutdown` has none of its own (R74, R79). -/
theorem exec_runsFramed {i : Instr} {s t : State} (hwf : i.wellFormed = true) (hactions : s.cfg.shutdownActions = [])
    (h : exec i s = .next t) : RespondsOrRunsFramed i s t := by
  have hruns {list : State → List Slot} (h : accepting i (fun s => perform i (list s) s) s = .next t)
      (hlist : FramedList s.cfg (list s)) : RespondsOrRunsFramed i s t :=
    accepting_runsFramed h (.inr ⟨s.lifecycle, list s, hlist, rfl⟩)
  have hbyte (rs : Bool) (b : Byte) : FramedList s.cfg (byteSeq s.cfg rs b) := (byteSeq_sendsBytes _ rs b).framed
  cases i <;> simp only [exec] at h
  case initializeReq => exact accepting_runsFramed h (.inr ⟨_, _, bringUpSeq_framed _, rfl⟩)
  case shutdown => exact accepting_runsFramed h (.inl ⟨.ok, if_neg fun hrun => hrun.2 hactions⟩)
  case identity => exact accepting_runsFramed h (.inl ⟨_, rfl⟩)
  case setCursor row col =>
    refine accepting_runsFramed h ?_
    cases decodeCell row col with
    | none => exact .inl ⟨_, rfl⟩
    | some b => exact .inr ⟨s.lifecycle, _, hbyte false b, rfl⟩
  case clear | cmdClear => exact hruns h (clearSeq_sendsBytes _).framed
  case home | cmdHome => exact hruns h (homeSeq_sendsBytes _).framed
  case writeChar c => exact hruns (refusingCodePoints_next h).1 (hbyte true _)
  case writeString cs => exact hruns (refusingCodePoints_next h).1 (stringSeq_sendsBytes _ cs).framed
  case rawInit8bit => exact hruns h (rawInit8Seq_framed _)
  case rawInit4bit => exact hruns h (rawInit4Seq_framed _)
  case sendRawNibble v => exact hruns h (pulse_framed s.cfg hwf)
  case cmdFunctionSet2line | cmdDisplayOn | cmdSetDdramAddress | sendCommand => exact hruns h (hbyte false _)
  case dataChar | sendData => exact hruns h (hbyte true _)

/-- Settles O52: a step runs a list with framed events ahead, its own or what is left of the one in flight, and however
that list ends its end is framed. -/
theorem stepKeepsTheTraceFramed : Obligations.StepKeepsTheTraceFramed := by
  intro s t h hstep
  have ⟨hactions, _⟩ := h
  obtain ⟨f, hf, rfl⟩ | ⟨-, rfl⟩ | ⟨hidle, q, rest, i, -, hdec, hexec⟩ := step_cases hstep
  · have hahead : s.FramedAhead (f.list.drop f.seq) := State.framedAhead_of_inFlight hf h
    exact State.FramedAhead.conclude_framed (s := { s with inFlight := none }) hahead hactions rfl
  · exact h
  · have hnow : { s with port := rest }.FramedAhead [] := State.framedAhead_of_framed hidle h
    obtain ⟨r, rfl⟩ | ⟨l, L, hL, rfl⟩ :=
      exec_runsFramed (s := { s with port := rest }) (wellFormed_of_decode hdec) hactions hexec
    · exact State.framed_of_idle hactions hidle (hnow.respond r)
    · have hahead : { s with port := rest }.FramedAhead L := hL.framedAhead hnow
      exact State.FramedAhead.conclude_framed (s := { s with port := rest, lifecycle := l }) (seq := 0) hahead hactions
        hidle

/-! ### An invalid `setCursor` (R116) -/

/-- Settles O23: `setCursor` is permitted in `Ready`, and the decoder has no byte for the pair. -/
theorem invalidSetCursorIssuesNothing : Obligations.InvalidSetCursorIssuesNothing := by
  intro s row col hidle hready hbad
  have hcell : decodeCell row col = none := decoderMapsExactlyTheCells.2 row col hbad
  rw [exec, execSetCursor, accepting_of_permitted hidle (permitted_of_ready rfl hready), hcell]
  rfl

/-! ### What is known of the display (R31, R109, R114) -/

/-- `State.displayUnknown` of the downstream state alone. -/
def Lcd.displayUnknown (l : Lcd) : Prop :=
  l.phase = .unknown ∧ l.lines = .unknown ∧ l.display = .unknown ∧ l.cursor = none ∧ l.content = .unknown

theorem State.displayUnknown_iff (s : State) : s.displayUnknown ↔ s.lcd.displayUnknown := Iff.rfl

theorem Lcd.loseSync_displayUnknown (l : Lcd) : l.loseSync.displayUnknown := ⟨rfl, rfl, rfl, rfl, rfl⟩

/-- Settles O57: the failing call ends the request in the state `stopped` gives, which has lost sync. -/
theorem failedRequestLosesTheDisplay : Obligations.FailedRequestLosesTheDisplay := by
  intro s t i L k e hidle hready hL hk hfail hexec
  obtain ⟨a, ha⟩ := exists_callAt hk
  rw [firstFailureEndsTheDisplayRequest s i L k e a hidle hready hL ha hfail] at hexec
  cases hexec
  exact ⟨Lcd.loseSync_displayUnknown _, rfl, hready⟩

/-! ### What every write keeps, every step keeps -/

/-- A property of the downstream state that no write of the block ends, answered `ok` or with an error. -/
structure Lcd.KeptByWrites (en : EnMask) (P : Lcd → Prop) : Prop where
  onWrite  : ∀ v l, P l → P (l.onWrite en v)
  loseSync : ∀ l, P l → P l.loseSync

/-- An action acts downstream as one write, answered `ok` or with an error, or not at all (R37). -/
theorem State.issue_lcd {s t : State} {a : Action} (h : s.issue a = .ok t ∨ ∃ e, s.issue a = .err e t) :
    t.lcd = s.lcd ∨ t.lcd = s.lcd.loseSync ∨ ∃ v, t.lcd = s.lcd.onWrite s.cfg.enMask v := by
  cases a with
  | delay d => simp [State.issue_delay] at h; subst h; exact .inl rfl
  | connect =>
    rcases hn : s.answerAt 0 with _ | c | e
    · simp [State.issue_call_blocked (a := .connect) rfl hn] at h
    · simp [State.issue_connect_ok hn] at h; subst h; exact .inl rfl
    · simp [State.issue_connect_err hn] at h; subst h; exact .inl rfl
  | write v =>
    rcases hn : s.answerAt 0 with _ | c | e
    · simp [State.issue_call_blocked (a := .write v) rfl hn] at h
    · simp [State.issue_write_ok v hn] at h; subst h; exact .inr (.inr ⟨v, rfl⟩)
    · simp [State.issue_write_err v hn] at h; subst h; exact .inr (.inl rfl)

/-- The end of a list leaves the downstream state of its run. -/
theorem conclude_lcd (req : Instr) (list : List Slot) (r : RunEnd) : (conclude req list r).lcd = r.state.lcd := by
  obtain ⟨u, rfl, heq⟩ | ⟨e, u, rfl, heq⟩ | ⟨k, dp, u, rfl, heq⟩ := conclude_cases req list r <;> rw [heq] <;> simp

section KeptByWrites
variable {s t : State} {P : Lcd → Prop}

theorem Lcd.KeptByWrites.issue {a : Action} (hP : Lcd.KeptByWrites s.cfg.enMask P) (hs : P s.lcd)
    (h : s.issue a = .ok t ∨ ∃ e, s.issue a = .err e t) : P t.lcd := by
  obtain heq | heq | ⟨v, heq⟩ := State.issue_lcd h <;> rw [heq]
  · exact hs
  · exact hP.loseSync _ hs
  · exact hP.onWrite v _ hs

theorem Lcd.KeptByWrites.runFrom (hP : Lcd.KeptByWrites s.cfg.enMask P) (hs : P s.lcd) (L : List Slot) (q : Nat) :
    P (runFrom L q s).state.lcd := by
  induction L generalizing q s with
  | nil => exact hs
  | cons a rest ih =>
    rw [Machine.runFrom]
    cases h : s.issue a.act with
    | ok t => exact ih ((State.issue_sameBlock (.inl h)).cfg ▸ hP) (hP.issue hs (.inl h)) (q + 1)
    | err e t => exact hP.issue hs (.inr ⟨e, h⟩)
    | blocked => exact hs

theorem Lcd.KeptByWrites.conclude (hP : Lcd.KeptByWrites s.cfg.enMask P) (hs : P s.lcd) (req : Instr)
    (list L : List Slot) (q : Nat) : P (conclude req list (Machine.runFrom L q s)).lcd := by
  rw [conclude_lcd]
  exact hP.runFrom hs L q

/-- A step changes the downstream state by its writes alone. -/
theorem Lcd.KeptByWrites.step (hP : Lcd.KeptByWrites s.cfg.enMask P) (hs : P s.lcd) (hstep : step s = .next t) :
    P t.lcd := by
  obtain ⟨f, -, rfl⟩ | ⟨-, rfl⟩ | ⟨-, q, rest, i, -, -, hexec⟩ := step_cases hstep
  · exact Lcd.KeptByWrites.conclude (s := { s with inFlight := none }) hP hs _ _ _ _
  · exact hs
  · obtain ⟨-, ⟨r, rfl, -⟩ | ⟨-, -, rfl⟩ | ⟨-, -, -, L, -, rfl⟩⟩ := exec_cases hexec
    · exact hs
    · exact Lcd.KeptByWrites.conclude (s := { s with port := rest, lifecycle := .bootstrapping }) hP hs _ _ _ _
    · exact Lcd.KeptByWrites.conclude (s := { s with port := rest }) hP hs _ _ _ _

end KeptByWrites

/-! ### A lost display (R89, R114) -/

/-- A display that was lost takes no more effect from any write (R89). -/
theorem Lcd.onWrite_of_lost (en : EnMask) (v : Byte) {l : Lcd} (h : l.lost = true) : l.onWrite en v = l := if_pos h

/-- The display was lost, nothing is known of it, and `ifmode` is `m`. -/
structure Lcd.LostFor (m : IfMode) (l : Lcd) : Prop where
  lost    : l.lost = true
  unknown : l.displayUnknown
  ifmode  : l.ifmode = m

theorem Lcd.lostFor_keptByWrites (en : EnMask) (m : IfMode) : Lcd.KeptByWrites en (Lcd.LostFor m) where
  onWrite v l h := by rwa [Lcd.onWrite_of_lost en v h.lost]
  loseSync l h := ⟨rfl, l.loseSync_displayUnknown, h.ifmode⟩

/-- Settles O58: no write ends it, so no step does. -/
theorem lostDisplayStaysLost : Obligations.LostDisplayStaysLost := by
  intro s t hlost hunknown hstep
  have hs : s.lcd.LostFor s.lcd.ifmode := ⟨hlost, hunknown, rfl⟩
  obtain ⟨hlost', hunknown', hmode⟩ := (Lcd.lostFor_keptByWrites s.cfg.enMask s.lcd.ifmode).step hs hstep
  exact ⟨hlost', hunknown', hmode⟩

/-! ### Outside 4-bit mode (R31, R109) -/

/-- Nothing is known of the display unless it is in 4-bit mode and was not lost. -/
def Lcd.KnownInFourBitOnly (l : Lcd) : Prop := l.displayUnknown ∨ (l.ifmode = .fourBit ∧ l.lost = false)

theorem Lcd.knownInFourBitOnly_iff (l : Lcd) :
    l.KnownInFourBitOnly ↔ (l.ifmode = .unknown ∨ l.lost = true → l.displayUnknown) := by
  unfold Lcd.KnownInFourBitOnly
  cases l.ifmode <;> cases l.lost <;> simp

section Latch
variable {l : Lcd} (n : Nibble) (rs : Bool)

/-- A raw nibble commits to 4-bit mode, or only counts. -/
theorem Lcd.latchRaw_knownInFourBitOnly (hlost : l.lost = false) (h : l.KnownInFourBitOnly) :
    (l.latchRaw n rs).KnownInFourBitOnly := by
  unfold Lcd.latchRaw
  split_ifs
  · exact h
  · exact h
  · exact .inr ⟨rfl, hlost⟩
  · exact h

/-- The second nibble of a byte keeps 4-bit mode, or loses sync where RS differs. -/
theorem Lcd.latchLow_knownInFourBitOnly (hmode : l.ifmode = .fourBit) (hlost : l.lost = false) (m : Nibble)
    (rs' : Bool) : (l.latchLow m rs' n rs).KnownInFourBitOnly := by
  unfold Lcd.latchLow
  split_ifs
  · exact .inl l.loseSync_displayUnknown
  · exact .inr ⟨hmode, hlost⟩
  · exact .inr ⟨(Lcd.command_ifmode ..).trans hmode, (Lcd.command_lost ..).trans hlost⟩

theorem Lcd.latch_knownInFourBitOnly (hlost : l.lost = false) (h : l.KnownInFourBitOnly) :
    (l.latch n rs).KnownInFourBitOnly := by
  unfold Lcd.latch
  split
  · exact Lcd.latchRaw_knownInFourBitOnly n rs hlost h
  · exact .inr ⟨‹l.ifmode = .fourBit›, hlost⟩
  · exact Lcd.latchLow_knownInFourBitOnly n rs ‹l.ifmode = .fourBit› hlost _ _
  · exact .inl l.loseSync_displayUnknown
  · exact .inl l.loseSync_displayUnknown

end Latch

theorem Lcd.knownInFourBitOnly_keptByWrites (en : EnMask) : Lcd.KeptByWrites en Lcd.KnownInFourBitOnly where
  loseSync l _ := .inl l.loseSync_displayUnknown
  onWrite v l h := by
    unfold Lcd.onWrite
    split_ifs with hlost hset
    · exact h
    · exact h
    · have hlost : l.lost = false := Bool.eq_false_iff.mpr hlost
      split
      · exact .inl l.loseSync_displayUnknown
      · split_ifs
        · exact Lcd.latch_knownInFourBitOnly (l := { l with wire := some v }) _ _ hlost h
        · exact .inl l.loseSync_displayUnknown
        · exact h

/-- A legal step that ends in `NotStarted` began there, and did nothing downstream: a list is run legally from another
lifecycle state only, and never ends in that one (R21, R36). -/
theorem State.Inv.step_notStarted {s t : State} (h : s.Inv) (hstep : step s = .next t)
    (ht : t.lifecycle = .notStarted) : s.lifecycle = .notStarted ∧ t.lcd = s.lcd := by
  obtain rfl | ⟨rest, -, ⟨r, rfl⟩ | ⟨s₀, req, list, seq, hrun, -, -, rfl⟩⟩ := step_respondsOrRuns h hstep
  · exact ⟨ht, rfl⟩
  · exact ⟨ht, rfl⟩
  · have hstarted : s₀.lifecycle ≠ .notStarted := by
      by_cases hreq : req = .initializeReq
      · obtain ⟨hl, -, -⟩ := hrun.bringUp hreq; simp [hl]
      · obtain ⟨hl, -, -, -⟩ := hrun.other hreq; simp [hl]
    obtain hl | ⟨-, hl | hl⟩ := conclude_runFrom_lifecycle req list (list.drop seq) seq s₀
    · exact absurd (hl.symm.trans ht) hstarted
    · rw [hl] at ht; cases ht
    · rw [hl] at ht; cases ht

/-- Settles O59: in a legal state only a step that does nothing downstream ends in `NotStarted`; and no write makes
anything known outside 4-bit mode. -/
theorem nothingIsKnownBeforeBringUp : Obligations.NothingIsKnownBeforeBringUp := by
  refine fun s t hstep => ⟨fun hinv hbefore => ⟨stepKeepsTheInvariant s t hinv hstep, fun ht => ?_⟩, fun hs => ?_⟩
  · obtain ⟨hstart, hlcd⟩ := hinv.step_notStarted hstep ht
    rw [State.displayUnknown_iff, hlcd]
    exact hbefore hstart
  · rw [State.displayUnknown_iff, ← Lcd.knownInFourBitOnly_iff] at hs ⊢
    exact (Lcd.knownInFourBitOnly_keptByWrites s.cfg.enMask).step hs hstep

/-! ### Counts and nominal delays (R70, R117) -/

/-- The default timing (R9): any byte takes two pulses, each with its delays. -/
theorem nominalDelay_unitActions_defaults (v w : Byte) : nominalDelay (unitActions Config.defaults v w) = 102 := rfl

theorem nominalDelay_append (L M : List Action) : nominalDelay (L ++ M) = nominalDelay L + nominalDelay M := by
  simp [nominalDelay]

theorem nominalDelay_stringActions_defaults (cs : List Nat) :
    nominalDelay (stringActions Config.defaults cs) = 102 * cs.length := by
  induction cs with
  | nil => rfl
  | cons c cs ih =>
    rw [stringActions_cons, nominalDelay_append, dataActions, nominalDelay_unitActions_defaults, ih, List.length_cons]
    omega

theorem length_stringActions (p : Params) (cs : List Nat) : (stringActions p cs).length = 8 * cs.length := by
  induction cs with
  | nil => rfl
  | cons c cs ih =>
    have hchar : (dataActions p (c % 256)).length = 8 := rfl
    rw [stringActions_cons, List.length_append, hchar, ih, List.length_cons]
    omega

/-- Settles O60: the machine's lists are the printed ones, and the printed ones are counted and summed. -/
theorem nominalTimingOfTheLists : Obligations.NominalTimingOfTheLists := by
  have hacts (L : List Slot) : L.map Slot.act = acts L := rfl
  refine ⟨fun p => ?_, ?_, ?_, ?_, fun b => ?_, fun cs => ?_⟩
  · exact ⟨acts_bringUpSeq p, acts_clearSeq p, acts_homeSeq p, fun b => ⟨acts_commandSeq p b, acts_dataSeq p b⟩,
      acts_stringSeq p⟩
  · rw [hacts, acts_bringUpSeq]; exact ⟨rfl, rfl, rfl⟩
  · rw [hacts, acts_clearSeq]; rfl
  · rw [hacts, acts_homeSeq]; rfl
  · rw [hacts, acts_commandSeq]; exact ⟨nominalDelay_unitActions_defaults _ _, rfl⟩
  · rw [hacts, acts_stringSeq]
    exact ⟨nominalDelay_stringActions_defaults cs, calls_stringActions _ cs, length_stringActions _ cs⟩

end Sys2Proof.Machine
